-- ==== Sys2Proof/Word.lean ====
section
/-! DEFINITION. The word types of the block, and the container for the four like things it has one of per channel. -/

namespace Sys2Proof

/-- One byte: the width of the register port, of the bus and of a RAM cell (R78). -/
abbrev Byte := BitVec 8

/-- One 16-bit channel register, or the high-address cache (R20, R35). -/
abbrev Word16 := BitVec 16

/-- One bus address (R70, R72). -/
abbrev BusAddr := BitVec 32

/-- A channel number, 0 to 3 (R20, R30). -/
abbrev ChanId := Fin 4

/-- Four like things, one for each channel number. -/
structure Quad (α : Type) where
  q0 : α
  q1 : α
  q2 : α
  q3 : α
deriving DecidableEq, Repr

/-- The thing of channel `c`. -/
def Quad.get {α : Type} (q : Quad α) (c : ChanId) : α :=
  match c with
  | 0 => q.q0
  | 1 => q.q1
  | 2 => q.q2
  | 3 => q.q3

/-- The four with that of channel `c` replaced. -/
def Quad.set {α : Type} (q : Quad α) (c : ChanId) (x : α) : Quad α :=
  match c with
  | 0 => { q with q0 := x }
  | 1 => { q with q1 := x }
  | 2 => { q with q2 := x }
  | 3 => { q with q3 := x }

/-- Every one of the four changed by a function of its channel number and itself. -/
def Quad.mapIdx {α : Type} (f : ChanId → α → α) (q : Quad α) : Quad α :=
  { q0 := f 0 q.q0, q1 := f 1 q.q1, q2 := f 2 q.q2, q3 := f 3 q.q3 }

/-- The same thing for each of the four. -/
def Quad.all {α : Type} (x : α) : Quad α := { q0 := x, q1 := x, q2 := x, q3 := x }

end Sys2Proof
end

