-- ==== Sys2Proof/Config.lean ====
section
/-! DEFINITION. What the spec leaves to an implementation (R5): the parameters of a RAM and of the register port, and the
one free value of the model. -/

namespace Sys2Proof

/-- `DECAY_TIME` (R5): a non-negative rational number of seconds, `num / den`. -/
structure DecayTime where
  num : Nat
  den : Nat
deriving DecidableEq, Repr

/-- The parameters of R5 that are fixed when the block is configured.  `PAGE` and `now` are inputs of an operation (R44)
and stand in the operation (`Invocation.simulateCycle` and the memory operations), not here. -/
structure Config where
  /-- `RAM_SIZE`: how many bytes `ram.data` has. -/
  ramSize : Nat
  /-- `ROW_BITS`: `ram.decayTimes` has `2 ^ rowBits` entries. -/
  rowBits : Nat
  /-- `TICKS_PER_SECOND`. -/
  ticksPerSecond : Nat
  /-- `DECAY_TIME`; none where the default of R256 applies. -/
  decayTime : Option DecayTime
  /-- `DECAY_VALUE`. -/
  decayValue : Byte
  /-- `TEMP_CLEAR_ON_READ`, whose default is true (R5, decision D10). -/
  tempClearOnRead : Bool
deriving DecidableEq, Repr

/-- The parameters are of the kind R5 gives them: a positive tick rate, and a rational that is one. -/
def Config.wf (cfg : Config) : Bool :=
  decide (0 < cfg.ticksPerSecond) &&
    (match cfg.decayTime with
     | none => true
     | some t => decide (0 < t.den))

/-- DESIGN CHOICE (unsafe, log entry 1): the parameters `State.reset` is built from.  The spec gives none of them a value
(decision D31); these are the ones of its program P1.  Statements are made for every configuration. -/
def Config.reference : Config :=
  { ramSize := 0x10000, rowBits := 8, ticksPerSecond := 500000, decayTime := none, decayValue := 0xff#8,
    tempClearOnRead := true }

/-- FREE VALUE (safe, log entry 2): `draw_8()` of R7, the byte a read of an unmapped register returns (R205), for the
`n`-th such read.  It has no body: nothing about it can be proved. -/
opaque Config.drawByte : Nat → Byte

end Sys2Proof
end

