-- ==== Sys2Proof/Syntax.lean ====
section
/-! DEFINITION. The operations of the block (R100, R114, R117): one constructor of `Instr` per row of the opcode table, and
the calls by which an outside agent asks for one (`Invocation`). -/

namespace Sys2Proof

/-- The seven values of `ctl.state` (R28).  It is also what selects the arm of a `CYC` (R160). -/
inductive Phase where
  | idle
  | s0
  | s1
  | s2
  | s3
  | s4
  | yield
deriving DecidableEq, Repr

/-- Which 16-bit register of a channel an access reaches: `registerSelect` 0 and 1 (R109). -/
inductive RegSelect where
  | address
  | count
deriving DecidableEq, Repr

/-- `PAGE` as it stands when an operation runs: the value of `PageRegisters.pageForChannel(c)` for each `c` (R5, R81). -/
abbrev Pages := Quad BusAddr

/-- One operation of the block, one constructor per row of the opcode table.  The register rows (`rd…`, `wr…`) name the
access point their address selects; a write carries the data byte.  The `cyc…` rows name the arm that `ctl.state` selects
and carry the inputs of the step: the tick and the page lookup.  Ticks are natural numbers (R88, R259). -/
inductive Instr where
  | rdAddr0
  | rdCnt0
  | rdAddr1
  | rdCnt1
  | rdAddr2
  | rdCnt2
  | rdAddr3
  | rdCnt3
  | rdStatus
  | rdUnmapped9
  | rdUnmapped10
  | rdUnmapped11
  | rdUnmapped12
  | rdTemp
  | rdUnmapped14
  | rdUnmapped15
  | wrAddr0 (v : Byte)
  | wrCnt0 (v : Byte)
  | wrAddr1 (v : Byte)
  | wrCnt1 (v : Byte)
  | wrAddr2 (v : Byte)
  | wrCnt2 (v : Byte)
  | wrAddr3 (v : Byte)
  | wrCnt3 (v : Byte)
  | wrCommand (v : Byte)
  | wrRequest (v : Byte)
  | wrMask1 (v : Byte)
  | wrMode (v : Byte)
  | wrClrff (v : Byte)
  | wrMclr (v : Byte)
  | wrMclrMask (v : Byte)
  | wrMaskAll (v : Byte)
  | seta (a : Nat)
  | dreq (c : Nat)
  | hrq
  | dack (c : Nat)
  | dmaDone (c : Nat)
  | busdata (v : Byte)
  | cycIdle (now : Nat) (pages : Pages)
  | cycS0 (now : Nat) (pages : Pages)
  | cycS1 (now : Nat) (pages : Pages)
  | cycS2 (now : Nat) (pages : Pages)
  | cycS3 (now : Nat) (pages : Pages)
  | cycS4 (now : Nat) (pages : Pages)
  | cycYield (now : Nat) (pages : Pages)
  | mrd (now : Nat) (a : BusAddr)
  | mwr (now : Nat) (a : BusAddr) (b : Byte)
  | ramDecayed (now : Nat) (a : Nat)
  | ramMaintain (ticks : Nat)
deriving DecidableEq, Repr

/-- What an outside agent calls (R8, R114).  `read`, `write` and `simulateCycle` do not name a row of the opcode table by
themselves: `ctl.address` and `ctl.state` complete them (R101, R160).  The rows of the table that have no selector are
calls as they stand. -/
inductive Invocation where
  | setAddress (a : Nat)
  | read
  | write (v : Byte)
  | dmaRequest (c : Nat)
  | dmaRequested
  | dmaAcknowledged (c : Nat)
  | dmaComplete (c : Nat)
  | busData (v : Byte)
  | simulateCycle (now : Nat) (pages : Pages)
  | busRead (now : Nat) (a : BusAddr)
  | busWrite (now : Nat) (a : BusAddr) (b : Byte)
  | ramDecayed (now : Nat) (a : Nat)
  | ramMaintain (ticks : Nat)
deriving DecidableEq, Repr

end Sys2Proof
end

