-- ==== Sys2Proof/WellFormed.lean ====
section
/-! DEFINITION. Which operations lie in the domain of the block: a channel argument is 0 to 3 (R9, decision D26); every
other operand is meant at every value of its type (R9). -/

namespace Sys2Proof

/-- A number that names a channel. -/
def isChannel (c : Nat) : Bool := decide (c < 4)

/-- The operation is in the block's domain. -/
def Instr.wellFormed : Instr → Bool
  | .rdAddr0 => true
  | .rdCnt0 => true
  | .rdAddr1 => true
  | .rdCnt1 => true
  | .rdAddr2 => true
  | .rdCnt2 => true
  | .rdAddr3 => true
  | .rdCnt3 => true
  | .rdStatus => true
  | .rdUnmapped9 => true
  | .rdUnmapped10 => true
  | .rdUnmapped11 => true
  | .rdUnmapped12 => true
  | .rdTemp => true
  | .rdUnmapped14 => true
  | .rdUnmapped15 => true
  | .wrAddr0 _ => true
  | .wrCnt0 _ => true
  | .wrAddr1 _ => true
  | .wrCnt1 _ => true
  | .wrAddr2 _ => true
  | .wrCnt2 _ => true
  | .wrAddr3 _ => true
  | .wrCnt3 _ => true
  | .wrCommand _ => true
  | .wrRequest _ => true
  | .wrMask1 _ => true
  | .wrMode _ => true
  | .wrClrff _ => true
  | .wrMclr _ => true
  | .wrMclrMask _ => true
  | .wrMaskAll _ => true
  | .seta _ => true
  | .dreq c => isChannel c
  | .hrq => true
  | .dack c => isChannel c
  | .dmaDone c => isChannel c
  | .busdata _ => true
  | .cycIdle _ _ => true
  | .cycS0 _ _ => true
  | .cycS1 _ _ => true
  | .cycS2 _ _ => true
  | .cycS3 _ _ => true
  | .cycS4 _ _ => true
  | .cycYield _ _ => true
  | .mrd _ _ => true
  | .mwr _ _ _ => true
  | .ramDecayed _ _ => true
  | .ramMaintain _ => true

end Sys2Proof
end

