-- ==== Sys2Proof/Decode.lean ====
section
/-! DEFINITION. From what an agent presents to an operation of the opcode table, and back (R101, R116 to R118).

A register-port access is decoded from its 13-bit `REG` word, packed as the spec packs it: direction, latched address, data
byte.  The other operations have no bit encoding (R116): their code is the call itself, and a `CYC` carries the number of
the state that selects its arm (R112). -/

namespace Sys2Proof

/-- The numbers of the states (R112, decision D23). -/
def Phase.number : Phase → Nat
  | .idle => 0
  | .s0 => 1
  | .s1 => 2
  | .s2 => 3
  | .s3 => 4
  | .s4 => 5
  | .yield => 6

/-- The state of a number; 7 and above are no state (R112). -/
def Phase.ofNumber : Nat → Option Phase
  | 0 => some .idle
  | 1 => some .s0
  | 2 => some .s1
  | 3 => some .s2
  | 4 => some .s3
  | 5 => some .s4
  | 6 => some .yield
  | _ => none

/-- What the opcode table's rows are written over: a `REG` word (13 bits, held in 16), a call of the `ADDR`, `PORT` or
`MEM` format, or a `CYC` with the number of the state that selects its arm. -/
inductive Code where
  | reg (w : BitVec 16)
  | setAddress (a : Nat)
  | dmaRequest (c : Nat)
  | dmaRequested
  | dmaAcknowledged (c : Nat)
  | dmaComplete (c : Nat)
  | busData (v : Byte)
  | simulateCycle (state : Nat) (now : Nat) (pages : Pages)
  | busRead (now : Nat) (a : BusAddr)
  | busWrite (now : Nat) (a : BusAddr) (b : Byte)
  | ramDecayed (now : Nat) (a : Nat)
  | ramMaintain (ticks : Nat)
deriving DecidableEq, Repr

/-- Why a code is no operation. -/
inductive DecodeError where
  /-- Bits 15 to 13 of the word are not 0: a `REG` word has 13 bits (R101).  Safe: nothing runs. -/
  | notARegWord
  /-- A `CYC` with a state number above 6: value 7 does not occur (R112).  Safe: nothing runs. -/
  | notAStateNumber
deriving DecidableEq, Repr

/-- `W` of R101: `dir` in bit 12, `addr` in bits 11 to 8, `data` in bits 7 to 0. -/
def regWord (isWrite : Bool) (addr : BitVec 4) (data : Byte) : BitVec 16 :=
  0#3 ++ (BitVec.ofBool isWrite ++ (addr ++ data))

/-- The register operation of a direction, a latched address (its bits 3, 2, 1, 0) and a data byte (R117, R118).  A read
has no input byte and drops the data. -/
def regInstr (isWrite : Bool) (addr : BitVec 4) (v : Byte) : Instr :=
  match isWrite, addr.getLsbD 3, addr.getLsbD 2, addr.getLsbD 1, addr.getLsbD 0 with
  | false, false, false, false, false => .rdAddr0
  | false, false, false, false, true  => .rdCnt0
  | false, false, false, true,  false => .rdAddr1
  | false, false, false, true,  true  => .rdCnt1
  | false, false, true,  false, false => .rdAddr2
  | false, false, true,  false, true  => .rdCnt2
  | false, false, true,  true,  false => .rdAddr3
  | false, false, true,  true,  true  => .rdCnt3
  | false, true,  false, false, false => .rdStatus
  | false, true,  false, false, true  => .rdUnmapped9
  | false, true,  false, true,  false => .rdUnmapped10
  | false, true,  false, true,  true  => .rdUnmapped11
  | false, true,  true,  false, false => .rdUnmapped12
  | false, true,  true,  false, true  => .rdTemp
  | false, true,  true,  true,  false => .rdUnmapped14
  | false, true,  true,  true,  true  => .rdUnmapped15
  | true,  false, false, false, false => .wrAddr0 v
  | true,  false, false, false, true  => .wrCnt0 v
  | true,  false, false, true,  false => .wrAddr1 v
  | true,  false, false, true,  true  => .wrCnt1 v
  | true,  false, true,  false, false => .wrAddr2 v
  | true,  false, true,  false, true  => .wrCnt2 v
  | true,  false, true,  true,  false => .wrAddr3 v
  | true,  false, true,  true,  true  => .wrCnt3 v
  | true,  true,  false, false, false => .wrCommand v
  | true,  true,  false, false, true  => .wrRequest v
  | true,  true,  false, true,  false => .wrMask1 v
  | true,  true,  false, true,  true  => .wrMode v
  | true,  true,  true,  false, false => .wrClrff v
  | true,  true,  true,  false, true  => .wrMclr v
  | true,  true,  true,  true,  false => .wrMclrMask v
  | true,  true,  true,  true,  true  => .wrMaskAll v

/-- The arm of `CYC` that a state selects (R160). -/
def cycInstr (p : Phase) (now : Nat) (pages : Pages) : Instr :=
  match p with
  | .idle => .cycIdle now pages
  | .s0 => .cycS0 now pages
  | .s1 => .cycS1 now pages
  | .s2 => .cycS2 now pages
  | .s3 => .cycS3 now pages
  | .s4 => .cycS4 now pages
  | .yield => .cycYield now pages

/-- The register operation of a `REG` word; a word of more than 13 bits is refused by name. -/
def decodeRegWord (w : BitVec 16) : Except DecodeError Instr :=
  if w.extractLsb' 13 3 = 0#3 then .ok (regInstr (w.getLsbD 12) (w.extractLsb' 8 4) (w.extractLsb' 0 8))
  else .error .notARegWord

/-- The decoder: total on every code. -/
def decode : Code → Except DecodeError Instr
  | .reg w => decodeRegWord w
  | .setAddress a => .ok (.seta a)
  | .dmaRequest c => .ok (.dreq c)
  | .dmaRequested => .ok .hrq
  | .dmaAcknowledged c => .ok (.dack c)
  | .dmaComplete c => .ok (.dmaDone c)
  | .busData v => .ok (.busdata v)
  | .simulateCycle n now pages =>
      match Phase.ofNumber n with
      | some p => .ok (cycInstr p now pages)
      | none => .error .notAStateNumber
  | .busRead now a => .ok (.mrd now a)
  | .busWrite now a b => .ok (.mwr now a b)
  | .ramDecayed now a => .ok (.ramDecayed now a)
  | .ramMaintain ticks => .ok (.ramMaintain ticks)

/-- The encoder, written from the table's rows: `match` of the row with the data byte below it, 0 for a read. -/
def encode : Instr → Code
  | .rdAddr0 => .reg 0x0000#16
  | .rdCnt0 => .reg 0x0100#16
  | .rdAddr1 => .reg 0x0200#16
  | .rdCnt1 => .reg 0x0300#16
  | .rdAddr2 => .reg 0x0400#16
  | .rdCnt2 => .reg 0x0500#16
  | .rdAddr3 => .reg 0x0600#16
  | .rdCnt3 => .reg 0x0700#16
  | .rdStatus => .reg 0x0800#16
  | .rdUnmapped9 => .reg 0x0900#16
  | .rdUnmapped10 => .reg 0x0a00#16
  | .rdUnmapped11 => .reg 0x0b00#16
  | .rdUnmapped12 => .reg 0x0c00#16
  | .rdTemp => .reg 0x0d00#16
  | .rdUnmapped14 => .reg 0x0e00#16
  | .rdUnmapped15 => .reg 0x0f00#16
  | .wrAddr0 v => .reg (0x10#8 ++ v)
  | .wrCnt0 v => .reg (0x11#8 ++ v)
  | .wrAddr1 v => .reg (0x12#8 ++ v)
  | .wrCnt1 v => .reg (0x13#8 ++ v)
  | .wrAddr2 v => .reg (0x14#8 ++ v)
  | .wrCnt2 v => .reg (0x15#8 ++ v)
  | .wrAddr3 v => .reg (0x16#8 ++ v)
  | .wrCnt3 v => .reg (0x17#8 ++ v)
  | .wrCommand v => .reg (0x18#8 ++ v)
  | .wrRequest v => .reg (0x19#8 ++ v)
  | .wrMask1 v => .reg (0x1a#8 ++ v)
  | .wrMode v => .reg (0x1b#8 ++ v)
  | .wrClrff v => .reg (0x1c#8 ++ v)
  | .wrMclr v => .reg (0x1d#8 ++ v)
  | .wrMclrMask v => .reg (0x1e#8 ++ v)
  | .wrMaskAll v => .reg (0x1f#8 ++ v)
  | .seta a => .setAddress a
  | .dreq c => .dmaRequest c
  | .hrq => .dmaRequested
  | .dack c => .dmaAcknowledged c
  | .dmaDone c => .dmaComplete c
  | .busdata v => .busData v
  | .cycIdle now pages => .simulateCycle 0 now pages
  | .cycS0 now pages => .simulateCycle 1 now pages
  | .cycS1 now pages => .simulateCycle 2 now pages
  | .cycS2 now pages => .simulateCycle 3 now pages
  | .cycS3 now pages => .simulateCycle 4 now pages
  | .cycS4 now pages => .simulateCycle 5 now pages
  | .cycYield now pages => .simulateCycle 6 now pages
  | .mrd now a => .busRead now a
  | .mwr now a b => .busWrite now a b
  | .ramDecayed now a => .ramDecayed now a
  | .ramMaintain ticks => .ramMaintain ticks

/-- The code a call presents to the block when the address latch and the sequencer hold what is given: the block itself
completes a register access by its latch (R101) and a `CYC` by its state (R160). -/
def Invocation.code (latch : BitVec 4) (phase : Phase) : Invocation → Code
  | .setAddress a => .setAddress a
  | .read => .reg (regWord false latch 0#8)
  | .write v => .reg (regWord true latch v)
  | .dmaRequest c => .dmaRequest c
  | .dmaRequested => .dmaRequested
  | .dmaAcknowledged c => .dmaAcknowledged c
  | .dmaComplete c => .dmaComplete c
  | .busData v => .busData v
  | .simulateCycle now pages => .simulateCycle phase.number now pages
  | .busRead now a => .busRead now a
  | .busWrite now a b => .busWrite now a b
  | .ramDecayed now a => .ramDecayed now a
  | .ramMaintain ticks => .ramMaintain ticks

/-- The operation a call is, given the latch and the state.  It is what `decode` reads from the call's code
(`Laws.decode_code`); the code of a call is never refused, so nothing is left out here. -/
def Invocation.select (latch : BitVec 4) (phase : Phase) : Invocation → Instr
  | .setAddress a => .seta a
  | .read => regInstr false latch 0#8
  | .write v => regInstr true latch v
  | .dmaRequest c => .dreq c
  | .dmaRequested => .hrq
  | .dmaAcknowledged c => .dack c
  | .dmaComplete c => .dmaDone c
  | .busData v => .busdata v
  | .simulateCycle now pages => cycInstr phase now pages
  | .busRead now a => .mrd now a
  | .busWrite now a b => .mwr now a b
  | .ramDecayed now a => .ramDecayed now a
  | .ramMaintain ticks => .ramMaintain ticks

/-- A row of the opcode table as the table writes it: its mnemonic, and what its `encoding` or its `match` and `mask`
accept, with the operands read out. -/
structure TableRow where
  mnemonic : String
  accepts : Code → Option Instr

/-- A `REG` row: `match` under the mask 0x1F00, the three bits above the word 0, the data byte handed on. -/
def regRow (mnemonic : String) (pattern : Nat) (build : Byte → Instr) : TableRow :=
  { mnemonic := mnemonic
    accepts := fun c =>
      match c with
      | .reg w =>
          if w.toNat &&& 0x1f00 = pattern ∧ w.toNat < 0x2000 then some (build (BitVec.ofNat 8 w.toNat)) else none
      | _ => none }

/-- A `CLK` row: the arm of the state with this number. -/
def clkRow (mnemonic : String) (state : Nat) (build : Nat → Pages → Instr) : TableRow :=
  { mnemonic := mnemonic
    accepts := fun c =>
      match c with
      | .simulateCycle n now pages => if n = state then some (build now pages) else none
      | _ => none }

/-- A row whose code is the call itself. -/
def callRow (mnemonic : String) (accepts : Code → Option Instr) : TableRow :=
  { mnemonic := mnemonic, accepts := accepts }

/-- The read rows of the opcode table. -/
def readRows : List TableRow :=
  [ regRow "RD.ADDR0" 0x0000 (fun _ => .rdAddr0), regRow "RD.CNT0" 0x0100 (fun _ => .rdCnt0),
    regRow "RD.ADDR1" 0x0200 (fun _ => .rdAddr1), regRow "RD.CNT1" 0x0300 (fun _ => .rdCnt1),
    regRow "RD.ADDR2" 0x0400 (fun _ => .rdAddr2), regRow "RD.CNT2" 0x0500 (fun _ => .rdCnt2),
    regRow "RD.ADDR3" 0x0600 (fun _ => .rdAddr3), regRow "RD.CNT3" 0x0700 (fun _ => .rdCnt3),
    regRow "RD.STATUS" 0x0800 (fun _ => .rdStatus), regRow "RD.UNMAPPED9" 0x0900 (fun _ => .rdUnmapped9),
    regRow "RD.UNMAPPED10" 0x0a00 (fun _ => .rdUnmapped10), regRow "RD.UNMAPPED11" 0x0b00 (fun _ => .rdUnmapped11),
    regRow "RD.UNMAPPED12" 0x0c00 (fun _ => .rdUnmapped12), regRow "RD.TEMP" 0x0d00 (fun _ => .rdTemp),
    regRow "RD.UNMAPPED14" 0x0e00 (fun _ => .rdUnmapped14), regRow "RD.UNMAPPED15" 0x0f00 (fun _ => .rdUnmapped15) ]

/-- The write rows of the opcode table. -/
def writeRows : List TableRow :=
  [ regRow "WR.ADDR0" 0x1000 .wrAddr0, regRow "WR.CNT0" 0x1100 .wrCnt0,
    regRow "WR.ADDR1" 0x1200 .wrAddr1, regRow "WR.CNT1" 0x1300 .wrCnt1,
    regRow "WR.ADDR2" 0x1400 .wrAddr2, regRow "WR.CNT2" 0x1500 .wrCnt2,
    regRow "WR.ADDR3" 0x1600 .wrAddr3, regRow "WR.CNT3" 0x1700 .wrCnt3,
    regRow "WR.COMMAND" 0x1800 .wrCommand, regRow "WR.REQUEST" 0x1900 .wrRequest,
    regRow "WR.MASK1" 0x1a00 .wrMask1, regRow "WR.MODE" 0x1b00 .wrMode,
    regRow "WR.CLRFF" 0x1c00 .wrClrff, regRow "WR.MCLR" 0x1d00 .wrMclr,
    regRow "WR.MCLRMASK" 0x1e00 .wrMclrMask, regRow "WR.MASKALL" 0x1f00 .wrMaskAll ]

/-- The rows of the opcode table that have no bit encoding. -/
def callRows : List TableRow :=
  [ callRow "SETA" (fun c => match c with | .setAddress a => some (.seta a) | _ => none),
    callRow "DREQ" (fun c => match c with | .dmaRequest k => some (.dreq k) | _ => none),
    callRow "HRQ?" (fun c => match c with | .dmaRequested => some .hrq | _ => none),
    callRow "DACK?" (fun c => match c with | .dmaAcknowledged k => some (.dack k) | _ => none),
    callRow "DONE" (fun c => match c with | .dmaComplete k => some (.dmaDone k) | _ => none),
    callRow "BUSDATA" (fun c => match c with | .busData v => some (.busdata v) | _ => none),
    clkRow "CYC.IDLE" 0 .cycIdle, clkRow "CYC.S0" 1 .cycS0, clkRow "CYC.S1" 2 .cycS1, clkRow "CYC.S2" 3 .cycS2,
    clkRow "CYC.S3" 4 .cycS3, clkRow "CYC.S4" 5 .cycS4, clkRow "CYC.YIELD" 6 .cycYield,
    callRow "MRD" (fun c => match c with | .busRead now a => some (.mrd now a) | _ => none),
    callRow "MWR" (fun c => match c with | .busWrite now a b => some (.mwr now a b) | _ => none),
    callRow "DECAYED?" (fun c => match c with | .ramDecayed now a => some (.ramDecayed now a) | _ => none),
    callRow "RAM.maintain" (fun c => match c with | .ramMaintain t => some (.ramMaintain t) | _ => none) ]

/-- The opcode table: its 49 rows in its order. -/
def opcodeTable : List TableRow := readRows ++ (writeRows ++ callRows)

/-- The operations that the rows of the table read from a code, one entry for each row that accepts it. -/
def tableReadings (c : Code) : List Instr := opcodeTable.filterMap (fun r => r.accepts c)

/-- What the decoder reads from a row's bits, numbered as the opcode table numbers them.  A `REG` word is one value of 13
bits (R101), so `nbits` (16 for these rows) adds nothing; a value of more than 13 bits is no word. -/
def decodeTableWord (_nbits w : Nat) : Option Instr :=
  if w < 0x10000 then
    match decode (.reg (BitVec.ofNat 16 w)) with
    | .ok i => some i
    | .error _ => none
  else none

end Sys2Proof
end

