-- ==== Sys2Proof/Machine/RamConfig.lean ====
section
/-! DEFINITION. What is computed once when the RAM is allocated: the decay time in ticks (R250, R256, R257). -/

namespace Sys2Proof.Machine

/-- The default decay time, `2 ^ rowBits / 64000` seconds, in ticks: exact, with one floor at the end (R256, decision D20). -/
def defaultDecayTicks (rowBits ticksPerSecond : Nat) : Nat := (2 ^ rowBits * ticksPerSecond) / 64000

/-- A configured decay time in ticks: exact, with one floor (R257, decision D20). -/
def configuredDecayTicks (t : DecayTime) (ticksPerSecond : Nat) : Nat := (t.num * ticksPerSecond) / t.den

/-- `ram.decayTicks` of a configuration (R40, R250). -/
def ramDecayTicks (cfg : Config) : Nat :=
  match cfg.decayTime with
  | none => defaultDecayTicks cfg.rowBits cfg.ticksPerSecond
  | some t => configuredDecayTicks t cfg.ticksPerSecond

end Sys2Proof.Machine
end

