-- ==== Sys2Proof/Machine/State.lean ====
section
/-! DEFINITION. The state of the block, the reasons it can stop, and the machine after power-on reset (R20 to R48). -/

namespace Sys2Proof.Machine

/-- Bytes of the RAM by address: `ram.data`, sparse (R38). -/
abbrev Memory := List Host.Cell

/-- Deadlines by row: `ram.decayTimes`, sparse (R39). -/
abbrev Deadlines := List (Nat × Nat)

/-- The stored fields of one channel (R20). -/
structure Channel where
  mode : Byte
  baseAddress : Word16
  baseCount : Word16
  currentAddress : Word16
  currentCount : Word16
  hardRequest : Bool
  softRequest : Bool
  internalRequest : Bool
  mask : Bool
  terminalCount : Bool
deriving DecidableEq, Repr

/-- The controller (R28 to R35). -/
structure Controller where
  state : Phase
  command : Byte
  channel : ChanId
  address : BitVec 4
  lastByte : Bool
  temporary : Byte
  dAck : Bool
  highAddress : Word16
deriving DecidableEq, Repr

/-- The RAM (R38 to R42): its size and row bits, fixed when it is allocated, its bytes, its rows' deadlines, the decay
time in ticks and the byte a decayed read returns. -/
structure Ram where
  size : Nat
  rowBits : Nat
  data : Memory
  decayTimes : Deadlines
  decayTicks : Nat
  decayValue : Byte
deriving DecidableEq, Repr

/-- The two bus latches (R43). -/
structure Bus where
  address : BusAddr
  data : Byte
deriving DecidableEq, Repr

/-- What an operation returns to the agent that invoked it (R114): nothing, a byte, or a boolean. -/
inductive Returned where
  | nothing
  | byte (v : Byte)
  | flag (b : Bool)
deriving DecidableEq, Repr

/-- The block.  `ch`, `ctl`, `ram` and `bus` are the spec's state.  The last four fields are the MODEL's own: the parameter
`TEMP_CLEAR_ON_READ` (R5); the calls the agents will make, oldest first (R8, log entry 4); what the last operation
returned (log entry 5); how many free bytes have been drawn (log entry 2). -/
structure State where
  ch : Quad Channel
  ctl : Controller
  ram : Ram
  bus : Bus
  tempClearOnRead : Bool
  inputs : List Invocation
  returned : Returned
  draws : Nat
deriving DecidableEq, Repr

/-- The reasons the block stops with a fault: there are none (R270).  The type has no constructor, so that no step can
fault. -/
inductive Fault where
deriving DecidableEq, Repr

/-- The reasons an operation is refused: the spec's own two (R9), and the host's for an operation without a meaning. -/
inductive Refusal where
  /-- Raised by an arm of `exec` whose operation has no meaning yet; no arm does.  Safe: nothing is claimed of it. -/
  | notModelled (mnemonic : String)
  /-- Raised by DREQ, DACK? and DONE for a channel argument outside 0 to 3 (R9, decision D26).  Safe: the spec gives no
  effect outside the domain. -/
  | channelOutOfRange (c : Nat)
  /-- Raised by RAM.maintain: the operation is not part of the hardware (R255, decision D22).  Safe: nothing runs. -/
  | maintainNotInHardware
deriving DecidableEq, Repr

/-- The fields R48 leaves unspecified at power-on: any values, each a draw (decisions D15, D18, D21).  `data` is the RAM's
initial contents. -/
structure Unspecified where
  latch : BitVec 4
  modes : Quad Byte
  baseAddresses : Quad Word16
  baseCounts : Quad Word16
  currentAddresses : Quad Word16
  currentCounts : Quad Word16
  data : Memory
  bus : Bus
deriving DecidableEq, Repr

/-- DESIGN CHOICE (unsafe, log entry 3): the values `State.reset` takes for the fields R48 leaves unspecified: all zero. -/
def Unspecified.zero : Unspecified :=
  { latch := 0#4, modes := Quad.all 0#8, baseAddresses := Quad.all 0#16, baseCounts := Quad.all 0#16,
    currentAddresses := Quad.all 0#16, currentCounts := Quad.all 0#16, data := [],
    bus := { address := 0#32, data := 0#8 } }

/-- One channel after power-on reset (R48). -/
def Channel.powerOn (mode : Byte) (baseAddress baseCount currentAddress currentCount : Word16) : Channel :=
  { mode := mode, baseAddress := baseAddress, baseCount := baseCount, currentAddress := currentAddress,
    currentCount := currentCount, hardRequest := false, softRequest := false, internalRequest := false, mask := true,
    terminalCount := false }

/-- The controller after power-on reset (R48). -/
def Controller.powerOn (latch : BitVec 4) : Controller :=
  { state := .idle, command := 0x00#8, channel := 3, address := latch, lastByte := false, temporary := 0x00#8,
    dAck := false, highAddress := 0xffff#16 }

/-- The RAM after it is allocated (R250): no row has a deadline other than 0 (R48, decision D21). -/
def Ram.powerOn (cfg : Config) (data : Memory) : Ram :=
  { size := cfg.ramSize, rowBits := cfg.rowBits, data := data, decayTimes := [], decayTicks := ramDecayTicks cfg,
    decayValue := cfg.decayValue }

/-- The block after power-on reset, for any configuration and any values of the fields R48 leaves unspecified (R48, R300). -/
def State.powerOn (cfg : Config) (u : Unspecified) : State :=
  { ch :=
      { q0 := Channel.powerOn u.modes.q0 u.baseAddresses.q0 u.baseCounts.q0 u.currentAddresses.q0 u.currentCounts.q0
        q1 := Channel.powerOn u.modes.q1 u.baseAddresses.q1 u.baseCounts.q1 u.currentAddresses.q1 u.currentCounts.q1
        q2 := Channel.powerOn u.modes.q2 u.baseAddresses.q2 u.baseCounts.q2 u.currentAddresses.q2 u.currentCounts.q2
        q3 := Channel.powerOn u.modes.q3 u.baseAddresses.q3 u.baseCounts.q3 u.currentAddresses.q3 u.currentCounts.q3 }
    ctl := Controller.powerOn u.latch
    ram := Ram.powerOn cfg u.data
    bus := u.bus
    tempClearOnRead := cfg.tempClearOnRead
    inputs := []
    returned := .nothing
    draws := 0 }

/-- The machine right after reset: the power-on state of the reference configuration with zeros where R48 gives no value
(log entries 1 and 3). -/
def State.reset : State := State.powerOn Config.reference Unspecified.zero

end Sys2Proof.Machine
end

