-- ==== Sys2Proof/Machine/Operands.lean ====
section
/-! DEFINITION. The operand forms: the fields of the data bytes and of the stored command and mode bytes (R102 to R106), the
halves of a 16-bit register (R108), the addresses a transfer drives (R72, R35). -/

namespace Sys2Proof.Machine

/-! ## Halves of a 16-bit register (R108; the sense of the toggle is decision D7) -/

/-- Bits 15:8 of a register when `high`, bits 7:0 otherwise. -/
def halfOf (high : Bool) (r : Word16) : Byte :=
  if high then r.extractLsb' 8 8 else r.extractLsb' 0 8

/-- A register with the selected half replaced and the other kept. -/
def mergeHalf (high : Bool) (b : Byte) (r : Word16) : Word16 :=
  if high then b ++ r.extractLsb' 0 8 else r.extractLsb' 8 8 ++ b

/-! ## The command byte (R102; the positions of bits 1 to 7 are decision D1) -/

def memToMem (command : Byte) : Bool := command.getLsbD 0
def ch0Hold (command : Byte) : Bool := command.getLsbD 1
def disabled (command : Byte) : Bool := command.getLsbD 2
def compressed (command : Byte) : Bool := command.getLsbD 3
def rotating (command : Byte) : Bool := command.getLsbD 4
/-- Stored and read by no rule (R111 c, decision D29). -/
def extWrite (command : Byte) : Bool := command.getLsbD 5
/-- Stored and read by no rule (R111 d, decision D14). -/
def dreqActiveLow (command : Byte) : Bool := command.getLsbD 6
/-- Stored and read by no rule (R111 d, decision D14). -/
def dackActiveHigh (command : Byte) : Bool := command.getLsbD 7

/-! ## The mode byte (R103; positions and value order are decision D2) -/

/-- The transfer types (R103). -/
inductive TransferType where
  | verify
  | write
  | read
  | illegal
deriving DecidableEq, Repr

/-- The transfer modes (R103). -/
inductive TransferMode where
  | demand
  | single
  | block
  | cascade
deriving DecidableEq, Repr

/-- Mode bits 3:2 (R145). -/
def Channel.transferType (c : Channel) : TransferType :=
  match c.mode.getLsbD 3, c.mode.getLsbD 2 with
  | false, false => .verify
  | false, true => .write
  | true, false => .read
  | true, true => .illegal

/-- Mode bits 7:6 (R146). -/
def Channel.transferMode (c : Channel) : TransferMode :=
  match c.mode.getLsbD 7, c.mode.getLsbD 6 with
  | false, false => .demand
  | false, true => .single
  | true, false => .block
  | true, true => .cascade

/-- Mode bit 4 (R147). -/
def Channel.autoInitialization (c : Channel) : Bool := c.mode.getLsbD 4

/-- Mode bit 5 (R148). -/
def Channel.addressDecrement (c : Channel) : Bool := c.mode.getLsbD 5

/-! ## The request, single-mask, mode and all-mask bytes (R103 to R106) -/

/-- `chSel`, bits 1:0 of the byte written at 9, 10 and 11: the channel it names (R104, R105; decision D5 for the mode). -/
def chSel (v : Byte) : ChanId :=
  match v.getLsbD 1, v.getLsbD 0 with
  | false, false => 0
  | false, true => 1
  | true, false => 2
  | true, true => 3

/-- `value`, bit 2 of the byte written at 9 and 10 (R104, R105; decision D4). -/
def valueBit (v : Byte) : Bool := v.getLsbD 2

/-- The bit for channel `c` of the byte written at 15 (R106; decision D6). -/
def maskBit (v : Byte) (c : ChanId) : Bool := v.getLsbD c.val

/-! ## What a transfer drives -/

/-- The bus address of a transfer: the channel's current address or-ed with its page (R72, decision D17). -/
def driveAddress (current : Word16) (page : BusAddr) : BusAddr := current.setWidth 32 ||| page

/-- The high byte of a current address as `ctl.highAddress` caches it (R35, decision D16). -/
def highCache (current : Word16) : Word16 := (current.extractLsb' 8 8).setWidth 16

/-- The value of `ctl.highAddress` that equals no cached byte (R35). -/
def sentinel : Word16 := 0xffff#16

/-- The partner of a channel in a memory-to-memory transfer: `k ^ 1` (R166). -/
def partner (k : ChanId) : ChanId :=
  match k with
  | 0 => 1
  | 1 => 0
  | 2 => 3
  | 3 => 2

end Sys2Proof.Machine
end

