-- ==== Sys2Proof/Machine/Flags.lean ====
section
/-! DEFINITION. The flag computations: requesting, the status byte, terminal count, qualification, and what the handshake
queries answer. -/

namespace Sys2Proof.Machine

/-- The fields of channel `c`. -/
def State.chan (s : State) (c : ChanId) : Channel := s.ch.get c

/-- `request(c)`: the pure function of the three sources and the mask (R24, R144). -/
def Channel.request (c : Channel) : Bool :=
  (c.hardRequest && !c.mask) || c.softRequest || c.internalRequest

/-- The value of `Channel.status`: bit 0 the terminal-count latch, bit 4 the request (R143). -/
def Channel.statusByte (c : Channel) : Byte :=
  (if c.terminalCount then 0x01#8 else 0x00#8) ||| (if c.request then 0x10#8 else 0x00#8)

/-- The status byte: each channel's value shifted left by its number, or-ed (R107, R195). -/
def State.statusByte (s : State) : Byte :=
  (s.chan 0).statusByte ||| ((s.chan 1).statusByte <<< 1) ||| ((s.chan 2).statusByte <<< 2) |||
    ((s.chan 3).statusByte <<< 3)

/-- The count is about to wrap from 0x0000 to 0xffff (R142). -/
def Channel.underflow (c : Channel) : Bool := c.currentCount == 0x0000#16

/-- `holdAddress` of the S4 action: command bit 1, for channel 0 only (R142, R166). -/
def State.holdAddress (s : State) : Bool := ch0Hold s.ctl.command && s.ctl.channel == 0

/-- Whether a channel qualifies for a grant (R181). -/
def State.qualifies (s : State) (c : ChanId) : Bool :=
  if c == 0 && memToMem s.ctl.command then
    (s.chan 0).request && !(s.chan 1).terminalCount
  else
    (s.chan c).request && !(s.chan c).terminalCount

/-- The condition of the memory-to-memory special case (R183). -/
def State.memToMemSpecial (s : State) : Bool :=
  s.ctl.channel == 0 && memToMem s.ctl.command && (s.chan 0).request && !(s.chan 1).terminalCount

/-- Entering the state writes the sentinel into `ctl.highAddress` (R168). -/
def Phase.dropsCache (p : Phase) : Bool := p == .idle || p == .s0 || p == .yield

/-- What `HRQ?` reports: the controller is not Idle (R241; Yield included, decision D30). -/
def State.holdRequested (s : State) : Bool := s.ctl.state != .idle

/-- What `DACK? c` reports (R242; the polarity bits change nothing, decision D14). -/
def State.acknowledged (s : State) (c : ChanId) : Bool := c == s.ctl.channel && s.ctl.dAck

/-- The S1 arm goes to S2: no compressed timing, or the high byte differs from the cached one (R163). -/
def State.mustDriveHigh (s : State) : Bool :=
  !compressed s.ctl.command || highCache (s.chan s.ctl.channel).currentAddress != s.ctl.highAddress

/-- The S2 action on the channel in service performs a bus write (R164). -/
def Channel.writesBus (c : Channel) : Bool := c.transferMode != .cascade && c.transferType == .write

/-- The S4 action on the channel in service performs a bus read (R166). -/
def Channel.readsBus (c : Channel) : Bool := c.transferMode != .cascade && c.transferType == .read

end Sys2Proof.Machine
end

