-- ==== Sys2Proof/Machine/Ops.lean ====
section
/-! DEFINITION. The named operations the meanings are made of: sparse memory, the RAM (file 45), the bus (R86), the channel
operations (file 40), entering a state (R168), the arbiter (file 42) and the two bus actions of a transfer (R164, R166).

The block takes no exception (R270).  What stands in the place of exception entry is the GRANT (`grant`, R275), and of the
return from it the end of the S4 action or master clear (R276). -/

namespace Sys2Proof.Machine

/-! ## Sparse lists in canonical form

A list of (key, value) pairs with keys strictly rising and no value equal to `d`, what an unlisted key reads as. -/

/-- The value at a key. -/
def Sparse.lookup {α : Type} (d : α) : List (Nat × α) → Nat → α
  | [], _ => d
  | (k, v) :: m, a => if k = a then v else Sparse.lookup d m a

/-- A pair put before the first greater key. -/
def Sparse.place {α : Type} : List (Nat × α) → Nat → α → List (Nat × α)
  | [], a, v => [(a, v)]
  | (k, w) :: m, a, v => if a < k then (a, v) :: (k, w) :: m else (k, w) :: Sparse.place m a v

/-- The list with every pair of a key taken out. -/
def Sparse.erase {α : Type} : List (Nat × α) → Nat → List (Nat × α)
  | [], _ => []
  | (k, w) :: m, a => if k = a then Sparse.erase m a else (k, w) :: Sparse.erase m a

/-- A value written at a key; writing what an unlisted key reads as takes the pair out. -/
def Sparse.store {α : Type} [DecidableEq α] (d : α) (m : List (Nat × α)) (a : Nat) (v : α) : List (Nat × α) :=
  if v = d then Sparse.erase m a else Sparse.place (Sparse.erase m a) a v

/-- The canonical form. -/
def Sparse.wf {α : Type} [DecidableEq α] (d : α) : List (Nat × α) → Bool
  | [] => true
  | (k, v) :: m => decide (v ≠ d) && m.all (fun e => decide (k < e.1)) && Sparse.wf d m

/-- DESIGN CHOICE (unsafe, log entry 6): what an address that the list does not name reads as.  R48 leaves the RAM's
initial bytes unspecified; a RAM with other initial bytes is one whose list names them (`Unspecified.data`). -/
def Memory.unlisted : Byte := 0x00#8

/-- What a row that the list does not name has as its deadline: the reset value 0 (R48). -/
def Deadlines.unlisted : Nat := 0

/-- The memory is in canonical form. -/
def Memory.wf (m : Memory) : Bool := Sparse.wf Memory.unlisted m

/-- The deadline array is in canonical form. -/
def Deadlines.wf (m : Deadlines) : Bool := Sparse.wf Deadlines.unlisted m

/-! ## The RAM (R250 to R254) -/

/-- The row of an address: its low `rowBits` bits (R74, R251). -/
def Ram.rowOf (r : Ram) (a : Nat) : Nat := a &&& ((1 <<< r.rowBits) - 1)

/-- The stored byte of an address, decayed or not: `ram.data[a]` (R38).  Beyond the size there is none and nothing is
stored (R73). -/
def Ram.byteAt (r : Ram) (a : Nat) : Byte := Sparse.lookup Memory.unlisted r.data a

/-- `ram.decayTimes[row]` (R39). -/
def Ram.deadlineAt (r : Ram) (row : Nat) : Nat := Sparse.lookup Deadlines.unlisted r.decayTimes row

/-- `RAM.decayed(tick, address)` (R252). -/
def Ram.decayed (r : Ram) (tick a : Nat) : Bool := decide (r.deadlineAt (r.rowOf a) ≤ tick)

/-- The address names a byte (R73). -/
def Ram.inRange (r : Ram) (a : Nat) : Bool := decide (a < r.size)

/-- The row of an address is given the deadline `tick + decayTicks` (R253, R254). -/
def Ram.refresh (r : Ram) (tick a : Nat) : Ram :=
  { r with decayTimes := Sparse.store Deadlines.unlisted r.decayTimes (r.rowOf a) (tick + r.decayTicks) }

/-- The byte `RAM.read` returns (R253). -/
def Ram.readValue (r : Ram) (tick a : Nat) : Byte :=
  if r.decayed tick a then r.decayValue
  else if r.inRange a then r.byteAt a
  else r.decayValue

/-- The RAM after `RAM.read`: a row that has not decayed is refreshed, a decayed one is left alone (R253). -/
def Ram.afterRead (r : Ram) (tick a : Nat) : Ram :=
  if r.decayed tick a then r else r.refresh tick a

/-- The RAM after `RAM.write`: the row is refreshed whatever its deadline, the byte is stored if the address is in range
(R254). -/
def Ram.afterWrite (r : Ram) (tick a : Nat) (b : Byte) : Ram :=
  if r.inRange a then { r.refresh tick a with data := Sparse.store Memory.unlisted r.data a b }
  else r.refresh tick a

/-! ## Updates of the state -/

/-- Channel `c` replaced. -/
def State.setChan (s : State) (c : ChanId) (x : Channel) : State := { s with ch := s.ch.set c x }

/-- Channel `c` changed by a function of its fields. -/
def State.modChan (s : State) (c : ChanId) (f : Channel → Channel) : State := s.setChan c (f (s.chan c))

/-- The controller replaced. -/
def State.setCtl (s : State) (x : Controller) : State := { s with ctl := x }

/-- The RAM replaced. -/
def State.setRam (s : State) (x : Ram) : State := { s with ram := x }

/-- The bus latches replaced. -/
def State.setBus (s : State) (x : Bus) : State := { s with bus := x }

/-- What the operation returns to its agent. -/
def State.returning (s : State) (r : Returned) : State := { s with returned := r }

/-- The single-field writers of a channel (R151). -/
def Channel.setHard (b : Bool) (c : Channel) : Channel := { c with hardRequest := b }
def Channel.setSoft (b : Bool) (c : Channel) : Channel := { c with softRequest := b }
def Channel.setInternal (b : Bool) (c : Channel) : Channel := { c with internalRequest := b }
def Channel.setMask (b : Bool) (c : Channel) : Channel := { c with mask := b }
def Channel.setMode (v : Byte) (c : Channel) : Channel := { c with mode := v }

/-! ## The bus in its reference binding (R86, decision D18) -/

/-- `Bus.setAddress(a)`. -/
def busSetAddress (a : BusAddr) (s : State) : State := s.setBus { s.bus with address := a }

/-- The byte that `Bus.read()` gets: `RAM.read` at the latched address. -/
def busReadValue (now : Nat) (s : State) : Byte := s.ram.readValue now s.bus.address.toNat

/-- `Bus.read()`: the byte read is latched. -/
def busRead (now : Nat) (s : State) : State :=
  (s.setRam (s.ram.afterRead now s.bus.address.toNat)).setBus { s.bus with data := busReadValue now s }

/-- `Bus.write()`: the latched byte is written. -/
def busWriteLatched (now : Nat) (s : State) : State :=
  s.setRam (s.ram.afterWrite now s.bus.address.toNat s.bus.data)

/-- `Bus.write(b)`: the explicit byte is latched and written. -/
def busWriteByte (now : Nat) (b : Byte) (s : State) : State :=
  busWriteLatched now (s.setBus { s.bus with data := b })

/-- `Bus.data()`: the last driven or read byte, used for diagnostic text only (R86, R284). -/
def busDataOut (s : State) : Byte := s.bus.data

/-! ## The channel operations (file 40) -/

/-- The current register that an access selects (R140). -/
def Channel.currentReg (c : Channel) : RegSelect → Word16
  | .address => c.currentAddress
  | .count => c.currentCount

/-- The base register that goes with it (R141). -/
def Channel.baseReg (c : Channel) : RegSelect → Word16
  | .address => c.baseAddress
  | .count => c.baseCount

/-- `Channel.read` (R140). -/
def Channel.read (c : Channel) (sel : RegSelect) (high : Bool) : Byte := halfOf high (c.currentReg sel)

/-- `Channel.write` (R141): the byte goes into the selected half of the base and of the current register. -/
def Channel.write (c : Channel) (sel : RegSelect) (b : Byte) (high : Bool) : Channel :=
  match sel with
  | .address =>
      { c with baseAddress := mergeHalf high b c.baseAddress, currentAddress := mergeHalf high b c.currentAddress }
  | .count => { c with baseCount := mergeHalf high b c.baseCount, currentCount := mergeHalf high b c.currentCount }

/-- The address after one transfer, modulo 65536 (R142, R152). -/
def Channel.steppedAddress (c : Channel) (holdAddress : Bool) : Word16 :=
  if holdAddress then c.currentAddress
  else if c.addressDecrement then c.currentAddress - 1#16
  else c.currentAddress + 1#16

/-- The channel after `Channel.update` (R142); the value that operation returns is the latch of the result. -/
def Channel.update (c : Channel) (holdAddress : Bool) : Channel :=
  if c.underflow then
    if c.autoInitialization then { c with currentAddress := c.baseAddress, currentCount := c.baseCount }
    else
      { c with currentAddress := c.steppedAddress holdAddress, currentCount := c.currentCount - 1#16,
               terminalCount := true }
  else { c with currentAddress := c.steppedAddress holdAddress, currentCount := c.currentCount - 1#16 }

/-- The channel after `Channel.status`: the latch is cleared (R143). -/
def Channel.afterStatus (c : Channel) : Channel := { c with terminalCount := false }

/-- `Channel.clear` (R150). -/
def Channel.clear (c : Channel) : Channel := { c with mask := true, terminalCount := false, softRequest := false }

/-! ## The register port (file 43) -/

/-- `RD` at an address 0 to 7: the byte is returned and the toggle flips (R193). -/
def readChannelReg (c : ChanId) (sel : RegSelect) (s : State) : State :=
  (s.setCtl { s.ctl with lastByte := !s.ctl.lastByte }).returning (.byte ((s.chan c).read sel s.ctl.lastByte))

/-- `WR v` at an address 0 to 7: both registers take the byte and the toggle flips (R194). -/
def writeChannelReg (c : ChanId) (sel : RegSelect) (v : Byte) (s : State) : State :=
  ((s.modChan c (fun x => x.write sel v s.ctl.lastByte)).setCtl { s.ctl with lastByte := !s.ctl.lastByte }).returning
    .nothing

/-- `RD` at an unmapped address: a free byte comes back and nothing of the block changes (R205, decision D9). -/
def readUnmapped (s : State) : State :=
  { s with returned := .byte (Config.drawByte s.draws), draws := s.draws + 1 }

/-! ## The sequencer -/

/-- `enter(p)`: every change of `ctl.state` goes through it (R168). -/
def enter (p : Phase) (s : State) : State :=
  s.setCtl { s.ctl with state := p, highAddress := if Phase.dropsCache p then sentinel else s.ctl.highAddress }

/-- A grant: the only entry into a transfer (R275). -/
def grant (c : ChanId) (s : State) : State := enter .s0 (s.setCtl { s.ctl with channel := c })

/-- The channel that scan position `i`, 1 to 4, visits (R182; the range is conflict C2's). -/
def scanChannel (s : State) (i : Nat) : ChanId :=
  if rotating s.ctl.command then Fin.ofNat 4 (i + s.ctl.channel.val) else Fin.ofNat 4 (i - 1)

/-- The scan order (R182). -/
def scanOrder (s : State) : List ChanId := [1, 2, 3, 4].map (scanChannel s)

/-- The channel that an arbitration grants, if any (R180). -/
def arbitrate (s : State) : Option ChanId :=
  if disabled s.ctl.command then none
  else if s.ctl.state != .idle then none
  else if s.memToMemSpecial then some 1
  else (scanOrder s).find? s.qualifies

/-- `checkForDMA()` (R180). -/
def checkForDMA (s : State) : State :=
  match arbitrate s with
  | some c => grant c s
  | none => s

/-! ## The bus actions of a transfer -/

/-- The byte that a Write transfer puts on the bus in S2: `temporary` for channel 1 under memory-to-memory, else the
latched byte (R164). -/
def s2Write (now : Nat) (s : State) : State :=
  if s.ctl.channel == 1 && memToMem s.ctl.command then busWriteByte now s.ctl.temporary s else busWriteLatched now s

/-- The address phase of the S2 action: the high byte is cached and the full address driven (R164). -/
def s2Drive (pages : Pages) (s : State) : State :=
  let current := (s.chan s.ctl.channel).currentAddress
  busSetAddress (driveAddress current (pages.get s.ctl.channel)) (s.setCtl { s.ctl with highAddress := highCache current })

/-- The S2 action (R164). -/
def actionS2 (now : Nat) (pages : Pages) (s : State) : State :=
  let s1 := s.setCtl { s.ctl with dAck := true }
  let x := s.chan s.ctl.channel
  enter .s3
    (if x.transferMode == .cascade then s1
     else if x.transferType == .write then s2Write now (s2Drive pages s1)
     else s2Drive pages s1)

/-- The read phase of the S4 action (R166): a Read transfer fetches its byte; channel 0 under memory-to-memory latches it
and raises channel 1's internal request. -/
def s4Fetch (now : Nat) (s : State) : State :=
  if (s.chan s.ctl.channel).readsBus then
    if s.ctl.channel == 0 && memToMem s.ctl.command then
      ((busRead now s).setCtl { s.ctl with temporary := busReadValue now s }).modChan 1 (Channel.setInternal true)
    else busRead now s
  else s

/-- The end of the transfer in the S4 action (R166): the internal request and `dAck` drop, the state is Idle, the channel is
updated. -/
def s4Count (s : State) : State :=
  let k := s.ctl.channel
  let s1 := enter .idle ((s.modChan k (Channel.setInternal false)).setCtl { s.ctl with dAck := false })
  s1.modChan k (fun x => x.update s.holdAddress)

/-- What goes on after a transfer that did not reach terminal count (R166): a Single transfer yields, a Block transfer
raises an internal request again, on the partner under memory-to-memory. -/
def s4Continue (s : State) : State :=
  let k := s.ctl.channel
  let x := s.chan k
  if x.terminalCount then s
  else
    match x.transferMode with
    | .single => enter .yield s
    | .block =>
        if memToMem s.ctl.command && decide (k.val < 2) then s.modChan (partner k) (Channel.setInternal true)
        else s.modChan k (Channel.setInternal true)
    | .demand => s
    | .cascade => s

/-- The S4 action (R166). -/
def actionS4 (now : Nat) (s : State) : State := checkForDMA (s4Continue (s4Count (s4Fetch now s)))

end Sys2Proof.Machine
end

