-- ==== Sys2Proof/Machine/Cycle.lean ====
section
/-! DEFINITION. The meanings of the seven arms of `CYC` (file 41).  `step` runs the arm that `ctl.state` selects (R160); an
arm by itself says what that arm does. -/

namespace Sys2Proof.Machine

/-- CYC in Idle: the sentinel is written and nothing else; no arbitration (R161). -/
def execCycIdle (_now : Nat) (_pages : Pages) (s : State) : Host.Outcome State Fault Refusal :=
  .next ((s.setCtl { s.ctl with highAddress := sentinel }).returning .nothing)

/-- CYC in S0: nothing changes (R162, decision D24). -/
def execCycS0 (_now : Nat) (_pages : Pages) (s : State) : Host.Outcome State Fault Refusal := .next (s.returning .nothing)

/-- CYC in S1: to S2, or under compressed timing with the high byte cached the S2 action at once (R163). -/
def execCycS1 (now : Nat) (pages : Pages) (s : State) : Host.Outcome State Fault Refusal :=
  .next ((if s.mustDriveHigh then enter .s2 s else actionS2 now pages s).returning .nothing)

/-- CYC in S2: the S2 action (R164). -/
def execCycS2 (now : Nat) (pages : Pages) (s : State) : Host.Outcome State Fault Refusal :=
  .next ((actionS2 now pages s).returning .nothing)

/-- CYC in S3: to S4, or under compressed timing the S4 action at once (R165). -/
def execCycS3 (now : Nat) (_pages : Pages) (s : State) : Host.Outcome State Fault Refusal :=
  .next ((if compressed s.ctl.command then actionS4 now s else enter .s4 s).returning .nothing)

/-- CYC in S4: the S4 action (R166). -/
def execCycS4 (now : Nat) (_pages : Pages) (s : State) : Host.Outcome State Fault Refusal := .next ((actionS4 now s).returning .nothing)

/-- CYC in Yield: back to Idle, then the arbiter (R167). -/
def execCycYield (_now : Nat) (_pages : Pages) (s : State) : Host.Outcome State Fault Refusal :=
  .next ((checkForDMA (enter .idle s)).returning .nothing)

end Sys2Proof.Machine
end

