-- ==== Sys2Proof/Machine/Handshake.lean ====
section
/-! DEFINITION. The meanings of the device-facing operations (file 44): DREQ, HRQ?, DACK?, DONE and BUSDATA.  A channel
argument outside 0 to 3 is refused (decision D26). -/

namespace Sys2Proof.Machine

/-- An operation on the channel that a number names; a number above 3 is refused by name (R9, decision D26). -/
def onChannel (c : Nat) (f : ChanId → State) : Host.Outcome State Fault Refusal :=
  if h : c < 4 then .next (f ⟨c, h⟩) else .refused (.channelOutOfRange c)

/-- DREQ: the hard request is set, whatever the polarity bit, then the arbiter (R240). -/
def execDreq (c : Nat) (s : State) : Host.Outcome State Fault Refusal :=
  onChannel c (fun k => (checkForDMA (s.modChan k (Channel.setHard true))).returning .nothing)

/-- HRQ?: S0 moves to S1; reports whether the controller is not Idle (R241). -/
def execHrq (s : State) : Host.Outcome State Fault Refusal :=
  .next ((if s.ctl.state == .s0 then enter .s1 s else s).returning (.flag s.holdRequested))

/-- DACK?: whether the channel is the one in service and `dAck` is asserted (R242). -/
def execDack (c : Nat) (s : State) : Host.Outcome State Fault Refusal :=
  onChannel c (fun k => s.returning (.flag (s.acknowledged k)))

/-- DONE: the hard request is cleared, then the arbiter (R243). -/
def execDone (c : Nat) (s : State) : Host.Outcome State Fault Refusal :=
  onChannel c (fun k => (checkForDMA (s.modChan k (Channel.setHard false))).returning .nothing)

/-- BUSDATA: a byte is placed in the bus data latch (R244). -/
def execBusdata (v : Byte) (s : State) : Host.Outcome State Fault Refusal :=
  .next ((s.setBus { s.bus with data := v }).returning .nothing)

end Sys2Proof.Machine
end

