-- ==== Sys2Proof/Machine/RamPort.lean ====
section
/-! DEFINITION. The meanings of the memory operations: MRD and MWR through the bus (R87), DECAYED? (R252), and RAM.maintain,
which is no part of the hardware (R255). -/

namespace Sys2Proof.Machine

/-- MRD: `Bus.setAddress(a)`, then `Bus.read()` (R87, R253). -/
def execMrd (now : Nat) (a : BusAddr) (s : State) : Host.Outcome State Fault Refusal :=
  .next ((busRead now (busSetAddress a s)).returning (.byte (s.ram.readValue now a.toNat)))

/-- MWR: `Bus.setAddress(a)`, then `Bus.write(b)` (R87, R254). -/
def execMwr (now : Nat) (a : BusAddr) (b : Byte) (s : State) : Host.Outcome State Fault Refusal :=
  .next ((busWriteByte now b (busSetAddress a s)).returning .nothing)

/-- DECAYED?: whether the row of an address has decayed; nothing changes (R252). -/
def execRamDecayed (now : Nat) (a : Nat) (s : State) : Host.Outcome State Fault Refusal :=
  .next (s.returning (.flag (s.ram.decayed now a)))

/-- RAM.maintain: "a model has no `maintain`, and refuses it if asked" (R255, decision D22). -/
def execRamMaintain (_ticks : Nat) (_s : State) : Host.Outcome State Fault Refusal := .refused .maintainNotInHardware

end Sys2Proof.Machine
end

