-- ==== Sys2Proof/Machine/RegRead.lean ====
section
/-! DEFINITION. The meanings of `RD` at the sixteen register addresses (R191, R193, R195, R201, R205). -/

namespace Sys2Proof.Machine

/-- RD.ADDR0: a byte of `ch[0].currentAddress` (R193). -/
def execRdAddr0 (s : State) : Host.Outcome State Fault Refusal := .next (readChannelReg 0 .address s)

/-- RD.CNT0: a byte of `ch[0].currentCount` (R193). -/
def execRdCnt0 (s : State) : Host.Outcome State Fault Refusal := .next (readChannelReg 0 .count s)

/-- RD.ADDR1: a byte of `ch[1].currentAddress` (R193). -/
def execRdAddr1 (s : State) : Host.Outcome State Fault Refusal := .next (readChannelReg 1 .address s)

/-- RD.CNT1: a byte of `ch[1].currentCount` (R193). -/
def execRdCnt1 (s : State) : Host.Outcome State Fault Refusal := .next (readChannelReg 1 .count s)

/-- RD.ADDR2: a byte of `ch[2].currentAddress` (R193). -/
def execRdAddr2 (s : State) : Host.Outcome State Fault Refusal := .next (readChannelReg 2 .address s)

/-- RD.CNT2: a byte of `ch[2].currentCount` (R193). -/
def execRdCnt2 (s : State) : Host.Outcome State Fault Refusal := .next (readChannelReg 2 .count s)

/-- RD.ADDR3: a byte of `ch[3].currentAddress` (R193). -/
def execRdAddr3 (s : State) : Host.Outcome State Fault Refusal := .next (readChannelReg 3 .address s)

/-- RD.CNT3: a byte of `ch[3].currentCount` (R193). -/
def execRdCnt3 (s : State) : Host.Outcome State Fault Refusal := .next (readChannelReg 3 .count s)

/-- RD.STATUS: the status byte; all four terminal-count latches are cleared; no arbitration (R195). -/
def execRdStatus (s : State) : Host.Outcome State Fault Refusal :=
  .next ({ s with ch := s.ch.mapIdx (fun _ x => x.afterStatus) }.returning (.byte s.statusByte))

/-- RD.UNMAPPED9: nothing changes and a free byte comes back (R205). -/
def execRdUnmapped9 (s : State) : Host.Outcome State Fault Refusal := .next (readUnmapped s)

/-- RD.UNMAPPED10: nothing changes and a free byte comes back (R205). -/
def execRdUnmapped10 (s : State) : Host.Outcome State Fault Refusal := .next (readUnmapped s)

/-- RD.UNMAPPED11: nothing changes and a free byte comes back (R205). -/
def execRdUnmapped11 (s : State) : Host.Outcome State Fault Refusal := .next (readUnmapped s)

/-- RD.UNMAPPED12: nothing changes and a free byte comes back (R205). -/
def execRdUnmapped12 (s : State) : Host.Outcome State Fault Refusal := .next (readUnmapped s)

/-- RD.UNMAPPED14: nothing changes and a free byte comes back (R205). -/
def execRdUnmapped14 (s : State) : Host.Outcome State Fault Refusal := .next (readUnmapped s)

/-- RD.UNMAPPED15: nothing changes and a free byte comes back (R205). -/
def execRdUnmapped15 (s : State) : Host.Outcome State Fault Refusal := .next (readUnmapped s)

/-- RD.TEMP: the temporary latch, cleared after the read when `TEMP_CLEAR_ON_READ` holds (R201, decision D10). -/
def execRdTemp (s : State) : Host.Outcome State Fault Refusal :=
  .next ((if s.tempClearOnRead then s.setCtl { s.ctl with temporary := 0x00#8 } else s).returning (.byte s.ctl.temporary))

end Sys2Proof.Machine
end

