-- ==== Sys2Proof/Machine/RegWrite.lean ====
section
/-! DEFINITION. The meanings of `SETA` and of `WR` at the sixteen register addresses (R190, R192, R194, R196 to R204). -/

namespace Sys2Proof.Machine

/-- SETA: the low 4 bits of `a` are latched (R190). -/
def execSeta (a : Nat) (s : State) : Host.Outcome State Fault Refusal :=
  .next ((s.setCtl { s.ctl with address := BitVec.ofNat 4 a }).returning .nothing)

/-- WR.ADDR0: a byte into `ch[0].baseAddress` and `ch[0].currentAddress` (R194). -/
def execWrAddr0 (v : Byte) (s : State) : Host.Outcome State Fault Refusal := .next (writeChannelReg 0 .address v s)

/-- WR.CNT0: a byte into `ch[0].baseCount` and `ch[0].currentCount` (R194). -/
def execWrCnt0 (v : Byte) (s : State) : Host.Outcome State Fault Refusal := .next (writeChannelReg 0 .count v s)

/-- WR.ADDR1: a byte into `ch[1].baseAddress` and `ch[1].currentAddress` (R194). -/
def execWrAddr1 (v : Byte) (s : State) : Host.Outcome State Fault Refusal := .next (writeChannelReg 1 .address v s)

/-- WR.CNT1: a byte into `ch[1].baseCount` and `ch[1].currentCount` (R194). -/
def execWrCnt1 (v : Byte) (s : State) : Host.Outcome State Fault Refusal := .next (writeChannelReg 1 .count v s)

/-- WR.ADDR2: a byte into `ch[2].baseAddress` and `ch[2].currentAddress` (R194). -/
def execWrAddr2 (v : Byte) (s : State) : Host.Outcome State Fault Refusal := .next (writeChannelReg 2 .address v s)

/-- WR.CNT2: a byte into `ch[2].baseCount` and `ch[2].currentCount` (R194). -/
def execWrCnt2 (v : Byte) (s : State) : Host.Outcome State Fault Refusal := .next (writeChannelReg 2 .count v s)

/-- WR.ADDR3: a byte into `ch[3].baseAddress` and `ch[3].currentAddress` (R194). -/
def execWrAddr3 (v : Byte) (s : State) : Host.Outcome State Fault Refusal := .next (writeChannelReg 3 .address v s)

/-- WR.CNT3: a byte into `ch[3].baseCount` and `ch[3].currentCount` (R194). -/
def execWrCnt3 (v : Byte) (s : State) : Host.Outcome State Fault Refusal := .next (writeChannelReg 3 .count v s)

/-- WR.COMMAND: the whole byte is stored; no arbitration (R196, decision D3). -/
def execWrCommand (v : Byte) (s : State) : Host.Outcome State Fault Refusal :=
  .next ((s.setCtl { s.ctl with command := v }).returning .nothing)

/-- WR.REQUEST: the soft request of one channel, then the arbiter (R197). -/
def execWrRequest (v : Byte) (s : State) : Host.Outcome State Fault Refusal :=
  .next ((checkForDMA (s.modChan (chSel v) (Channel.setSoft (valueBit v)))).returning .nothing)

/-- WR.MASK1: the mask of one channel, then the arbiter (R198). -/
def execWrMask1 (v : Byte) (s : State) : Host.Outcome State Fault Refusal :=
  .next ((checkForDMA (s.modChan (chSel v) (Channel.setMask (valueBit v)))).returning .nothing)

/-- WR.MODE: the whole byte into the mode of one channel; no arbitration (R199). -/
def execWrMode (v : Byte) (s : State) : Host.Outcome State Fault Refusal :=
  .next ((s.modChan (chSel v) (Channel.setMode v)).returning .nothing)

/-- WR.CLRFF: the byte toggle is reset; the data byte is ignored (R200, R111 e). -/
def execWrClrff (_v : Byte) (s : State) : Host.Outcome State Fault Refusal :=
  .next ((s.setCtl { s.ctl with lastByte := false }).returning .nothing)

/-- The block after the assignments of master clear, before its arbitration (R202, decision D13). -/
def masterCleared (s : State) : State :=
  enter .idle
    { s with
        ch := s.ch.mapIdx (fun _ x => x.clear)
        ctl := { s.ctl with dAck := false, command := 0x00#8, lastByte := false, temporary := 0x00#8 } }

/-- WR.MCLR: master clear, then the arbiter; the data byte is ignored (R202, R111 e). -/
def execWrMclr (_v : Byte) (s : State) : Host.Outcome State Fault Refusal :=
  .next ((checkForDMA (masterCleared s)).returning .nothing)

/-- WR.MCLRMASK: all four masks are cleared, nothing else of a channel, then the arbiter (R203, conflict C1). -/
def execWrMclrMask (_v : Byte) (s : State) : Host.Outcome State Fault Refusal :=
  .next ((checkForDMA { s with ch := s.ch.mapIdx (fun _ x => x.setMask false) }).returning .nothing)

/-- WR.MASKALL: the four masks from bits 3:0, then the arbiter (R204). -/
def execWrMaskAll (v : Byte) (s : State) : Host.Outcome State Fault Refusal :=
  .next ((checkForDMA { s with ch := s.ch.mapIdx (fun c x => x.setMask (maskBit v c)) }).returning .nothing)

end Sys2Proof.Machine
end

