-- ==== Sys2Proof/Machine/Dispatch.lean ====
section
/-! DEFINITION. The meaning of every operation: one arm per row of the opcode table (R117). -/

namespace Sys2Proof.Machine

def exec (i : Instr) (s : State) : Host.Outcome State Fault Refusal :=
  match i with
  | .rdAddr0 => Sys2Proof.Machine.execRdAddr0 s
  | .rdCnt0 => Sys2Proof.Machine.execRdCnt0 s
  | .rdAddr1 => Sys2Proof.Machine.execRdAddr1 s
  | .rdCnt1 => Sys2Proof.Machine.execRdCnt1 s
  | .rdAddr2 => Sys2Proof.Machine.execRdAddr2 s
  | .rdCnt2 => Sys2Proof.Machine.execRdCnt2 s
  | .rdAddr3 => Sys2Proof.Machine.execRdAddr3 s
  | .rdCnt3 => Sys2Proof.Machine.execRdCnt3 s
  | .rdStatus => Sys2Proof.Machine.execRdStatus s
  | .rdUnmapped9 => Sys2Proof.Machine.execRdUnmapped9 s
  | .rdUnmapped10 => Sys2Proof.Machine.execRdUnmapped10 s
  | .rdUnmapped11 => Sys2Proof.Machine.execRdUnmapped11 s
  | .rdUnmapped12 => Sys2Proof.Machine.execRdUnmapped12 s
  | .rdTemp => Sys2Proof.Machine.execRdTemp s
  | .rdUnmapped14 => Sys2Proof.Machine.execRdUnmapped14 s
  | .rdUnmapped15 => Sys2Proof.Machine.execRdUnmapped15 s
  | .wrAddr0 v => Sys2Proof.Machine.execWrAddr0 v s
  | .wrCnt0 v => Sys2Proof.Machine.execWrCnt0 v s
  | .wrAddr1 v => Sys2Proof.Machine.execWrAddr1 v s
  | .wrCnt1 v => Sys2Proof.Machine.execWrCnt1 v s
  | .wrAddr2 v => Sys2Proof.Machine.execWrAddr2 v s
  | .wrCnt2 v => Sys2Proof.Machine.execWrCnt2 v s
  | .wrAddr3 v => Sys2Proof.Machine.execWrAddr3 v s
  | .wrCnt3 v => Sys2Proof.Machine.execWrCnt3 v s
  | .wrCommand v => Sys2Proof.Machine.execWrCommand v s
  | .wrRequest v => Sys2Proof.Machine.execWrRequest v s
  | .wrMask1 v => Sys2Proof.Machine.execWrMask1 v s
  | .wrMode v => Sys2Proof.Machine.execWrMode v s
  | .wrClrff v => Sys2Proof.Machine.execWrClrff v s
  | .wrMclr v => Sys2Proof.Machine.execWrMclr v s
  | .wrMclrMask v => Sys2Proof.Machine.execWrMclrMask v s
  | .wrMaskAll v => Sys2Proof.Machine.execWrMaskAll v s
  | .seta a => Sys2Proof.Machine.execSeta a s
  | .dreq c => Sys2Proof.Machine.execDreq c s
  | .hrq => Sys2Proof.Machine.execHrq s
  | .dack c => Sys2Proof.Machine.execDack c s
  | .dmaDone c => Sys2Proof.Machine.execDone c s
  | .busdata v => Sys2Proof.Machine.execBusdata v s
  | .cycIdle now pages => Sys2Proof.Machine.execCycIdle now pages s
  | .cycS0 now pages => Sys2Proof.Machine.execCycS0 now pages s
  | .cycS1 now pages => Sys2Proof.Machine.execCycS1 now pages s
  | .cycS2 now pages => Sys2Proof.Machine.execCycS2 now pages s
  | .cycS3 now pages => Sys2Proof.Machine.execCycS3 now pages s
  | .cycS4 now pages => Sys2Proof.Machine.execCycS4 now pages s
  | .cycYield now pages => Sys2Proof.Machine.execCycYield now pages s
  | .mrd now a => Sys2Proof.Machine.execMrd now a s
  | .mwr now a b => Sys2Proof.Machine.execMwr now a b s
  | .ramDecayed now a => Sys2Proof.Machine.execRamDecayed now a s
  | .ramMaintain ticks => Sys2Proof.Machine.execRamMaintain ticks s

end Sys2Proof.Machine
end

