-- ==== Sys2Proof/Machine/Step.lean ====
section
/-! DEFINITION. One step of the block: the oldest waiting call of an agent is taken and run (R8).  The block has no step of
its own: with no call waiting nothing moves. -/

namespace Sys2Proof.Machine

/-- The operation that the next step runs: the oldest call, completed by the latch and the state. -/
def State.nextInstr (s : State) : Option Instr :=
  match s.inputs with
  | [] => none
  | call :: _ => some (call.select s.ctl.address s.ctl.state)

/-- The state with the oldest call taken. -/
def State.dequeue (s : State) : State := { s with inputs := s.inputs.tail }

/-- One step (R8): an operation is atomic and runs to its end. -/
def step (s : State) : Host.Outcome State Fault Refusal :=
  match s.nextInstr with
  | none => .next s
  | some i => exec i s.dequeue

/-- The register access of a `REG` word made the next operation of `s`: the latch holds the word's address, and the call is
the read or the write with its data byte (R101).  A number of more than 13 bits is no word and changes nothing. -/
def State.withFetchWord (s : State) (_nbits w : Nat) : State :=
  if w < 0x2000 then
    { s with
      ctl := { s.ctl with address := BitVec.ofNat 4 (w / 256) }
      inputs := (if w < 0x1000 then Invocation.read else Invocation.write (BitVec.ofNat 8 w)) :: s.inputs }
  else s

end Sys2Proof.Machine
end

