-- ==== Sys2Proof/Machine/Persist.lean ====
section
/-! DEFINITION. What an external serialization layer saves and loads (R46, R47, R322).  The format is out of scope (R4); what
is saved, and what a load leaves open, is here.  No row of the opcode table saves or loads. -/

namespace Sys2Proof.Machine

/-- The fields that must round-trip (R46). -/
structure Saved where
  state : Phase
  command : Byte
  channels : Quad Channel
  lastByte : Bool
  channel : ChanId
  highAddress : Word16
  data : Memory
  decayTimes : Deadlines
deriving DecidableEq, Repr

/-- The fields the list omits: after a load they hold any values (R46, U12). -/
structure Unsaved where
  temporary : Byte
  dAck : Bool
  address : BitVec 4
  bus : Bus
deriving DecidableEq, Repr

/-- What is saved of a state (R46). -/
def State.save (s : State) : Saved :=
  { state := s.ctl.state, command := s.ctl.command, channels := s.ch, lastByte := s.ctl.lastByte,
    channel := s.ctl.channel, highAddress := s.ctl.highAddress, data := s.ram.data, decayTimes := s.ram.decayTimes }

/-- A saved state loaded into a block of the same configuration; the omitted fields take the values given, which no rule
fixes (R46, R47). -/
def State.load (s : State) (v : Saved) (u : Unsaved) : State :=
  { s with
    ch := v.channels
    ctl := { state := v.state, command := v.command, channel := v.channel, address := u.address,
             lastByte := v.lastByte, temporary := u.temporary, dAck := u.dAck, highAddress := v.highAddress }
    ram := { s.ram with data := v.data, decayTimes := v.decayTimes }
    bus := u.bus }

end Sys2Proof.Machine
end

