-- ==== Sys2Proof/Safety.lean ====
section
/-! DEFINITION. The terms that statements about the block are written in: what an operation leaves unchanged, what a grant
does to the controller, how the arbiter ranks the channels, how `ctl.state` may move, and what holds of every state that
the rules reach from power-on (R36, R38, R39). -/

namespace Sys2Proof.Machine

/-! ## Frames -/

/-- Every field of every channel is as before. -/
def SameChannels (s t : State) : Prop := ∀ c : ChanId, t.chan c = s.chan c

/-- What is fixed when the block is configured is as before (R40 to R42, R5). -/
def SameConfiguration (s t : State) : Prop :=
  t.ram.size = s.ram.size ∧ t.ram.rowBits = s.ram.rowBits ∧ t.ram.decayTicks = s.ram.decayTicks ∧
    t.ram.decayValue = s.ram.decayValue ∧ t.tempClearOnRead = s.tempClearOnRead

/-- Every byte and every deadline of the RAM is as before, and so is its configuration. -/
def SameRam (s t : State) : Prop :=
  (∀ a : Nat, t.ram.byteAt a = s.ram.byteAt a) ∧ (∀ row : Nat, t.ram.deadlineAt row = s.ram.deadlineAt row) ∧
    SameConfiguration s t

/-- The model's own fields, but for what the operation returned, are as before. -/
def SameEnvironment (s t : State) : Prop := t.inputs = s.inputs ∧ t.draws = s.draws

/-- Everything outside the channels, the controller and the returned value is as before. -/
def SameOutside (s t : State) : Prop := SameRam s t ∧ t.bus = s.bus ∧ SameEnvironment s t

/-- A channel is as before but for its internal request. -/
def SameButInternal (x y : Channel) : Prop := y = { x with internalRequest := y.internalRequest }

/-! ## The rows of the register file -/

/-- The read row of a channel register (R109, R117). -/
def rdChannelInstr (c : ChanId) (sel : RegSelect) : Instr :=
  match c, sel with
  | 0, .address => .rdAddr0
  | 0, .count => .rdCnt0
  | 1, .address => .rdAddr1
  | 1, .count => .rdCnt1
  | 2, .address => .rdAddr2
  | 2, .count => .rdCnt2
  | 3, .address => .rdAddr3
  | 3, .count => .rdCnt3

/-- The write row of a channel register (R109, R117). -/
def wrChannelInstr (c : ChanId) (sel : RegSelect) (v : Byte) : Instr :=
  match c, sel with
  | 0, .address => .wrAddr0 v
  | 0, .count => .wrCnt0 v
  | 1, .address => .wrAddr1 v
  | 1, .count => .wrCnt1 v
  | 2, .address => .wrAddr2 v
  | 2, .count => .wrCnt2 v
  | 3, .address => .wrAddr3 v
  | 3, .count => .wrCnt3 v

/-- The six reads of unmapped addresses (R110, R205). -/
def unmappedReads : List Instr :=
  [.rdUnmapped9, .rdUnmapped10, .rdUnmapped11, .rdUnmapped12, .rdUnmapped14, .rdUnmapped15]

/-- The number of a transfer type in mode bits 3:2 (R103, R145). -/
def TransferType.number : TransferType → Nat
  | .verify => 0
  | .write => 1
  | .read => 2
  | .illegal => 3

/-- The number of a transfer mode in mode bits 7:6 (R103, R146). -/
def TransferMode.number : TransferMode → Nat
  | .demand => 0
  | .single => 1
  | .block => 2
  | .cascade => 3

/-- A 16-bit register with one half replaced, as a number (R108). -/
def mergedValue (high : Bool) (v : Byte) (r : Word16) : Nat :=
  if high then 256 * v.toNat + r.toNat % 256 else 256 * (r.toNat / 256) + v.toNat

/-- The address one step on, as a number modulo 65536 (R142, R152). -/
def steppedValue (x : Channel) (hold : Bool) : Nat :=
  if hold then x.currentAddress.toNat
  else if x.addressDecrement then (x.currentAddress.toNat + 65535) % 65536
  else (x.currentAddress.toNat + 1) % 65536

/-! ## Grants -/

/-- The controller of `m` after a grant of channel `c` (R275). -/
def grantedCtl (m : State) (c : ChanId) : Controller :=
  { m.ctl with channel := c, state := .s0, highAddress := 0xffff#16 }

/-- The controller of `m` after an arbitration in `m` (R180). -/
def arbitratedCtl (m : State) : Controller :=
  match arbitrate m with
  | some c => grantedCtl m c
  | none => m.ctl

/-- How late the scan visits a channel, 0 first (R182): the channel's number under fixed priority, its distance past
`ctl.channel + 1` under rotating priority. -/
def scanRank (s : State) (c : ChanId) : Nat :=
  if s.ctl.command.getLsbD 4 then (c.val + 3 - s.ctl.channel.val) % 4 else c.val

/-- The state before the arbitration that ends an S4 action (R166): the controller Idle with `dAck` false, the channels and
the latches as the action leaves them in `t`. -/
def beforeS4Arbitration (s t : State) : State :=
  { t with
    ctl := { s.ctl with state := .idle, dAck := false, highAddress := 0xffff#16, temporary := t.ctl.temporary } }

/-! ## The moves of `ctl.state` -/

/-- The moves of `ctl.state` that an operation may make, staying put apart (R28). -/
def phaseEdge (i : Instr) (p q : Phase) : Bool :=
  match i with
  | .wrRequest _ | .wrMask1 _ | .wrMclrMask _ | .wrMaskAll _ | .dreq _ | .dmaDone _ => p == .idle && q == .s0
  | .wrMclr _ => q == .idle || q == .s0
  | .hrq => p == .s0 && q == .s1
  | .cycS1 _ _ => p == .s1 && (q == .s2 || q == .s3)
  | .cycS2 _ _ => p == .s2 && q == .s3
  | .cycS3 _ _ => p == .s3 && (q == .s4 || q == .idle || q == .yield || q == .s0)
  | .cycS4 _ _ => p == .s4 && (q == .idle || q == .yield || q == .s0)
  | .cycYield _ _ => p == .yield && (q == .idle || q == .s0)
  | _ => false

/-- The operation ends a transfer or abandons it: after it another channel may be in service (R186, R276). -/
def endsService (i : Instr) : Bool :=
  match i with
  | .wrMclr _ | .cycS3 _ _ | .cycS4 _ _ | .cycYield _ _ => true
  | _ => false

/-- A call of `CYC`. -/
def isCycle (call : Invocation) : Bool :=
  match call with
  | .simulateCycle _ _ => true
  | _ => false

/-! ## Writers of fields -/

/-- The operation is a host write of a base register of the channel, and so of the matching current register (R22, R23). -/
def writesRegistersOf (i : Instr) (c : ChanId) : Bool :=
  match i with
  | .wrAddr0 _ | .wrCnt0 _ => c == 0
  | .wrAddr1 _ | .wrCnt1 _ => c == 1
  | .wrAddr2 _ | .wrCnt2 _ => c == 2
  | .wrAddr3 _ | .wrCnt3 _ => c == 3
  | _ => false

/-- The operation writes the mode of the channel (R21). -/
def writesModeOf (i : Instr) (c : ChanId) : Bool :=
  match i with
  | .wrMode v => c.val == v.toNat % 4
  | _ => false

/-- The operation can clear a terminal-count latch (R26, R206). -/
def clearsTerminalCount (i : Instr) : Bool :=
  match i with
  | .rdStatus | .wrMclr _ => true
  | _ => false

/-- The operation runs the S4 action, and with it `Channel.update` of the channel in service: `CYC` in S4, and in S3 under
compressed timing (R165, R166). -/
def countsTransfer (i : Instr) (s : State) : Bool :=
  match i with
  | .cycS3 _ _ => compressed s.ctl.command
  | .cycS4 _ _ => true
  | _ => false

/-- The operation writes the hard request of the channel (R24). -/
def writesHardOf (i : Instr) (c : ChanId) : Bool :=
  match i with
  | .dreq k | .dmaDone k => k == c.val
  | _ => false

/-- The operation can write a soft request of the channel (R24, R307). -/
def writesSoftOf (i : Instr) (c : ChanId) : Bool :=
  match i with
  | .wrRequest v => c.val == v.toNat % 4
  | .wrMclr _ => true
  | _ => false

/-- The operation can write a mask (R25). -/
def writesMask (i : Instr) : Bool :=
  match i with
  | .wrMask1 _ | .wrMclr _ | .wrMclrMask _ | .wrMaskAll _ => true
  | _ => false

/-- The address that an operation stores a byte to, if it stores one: MWR its operand, the S2 action of a Write transfer
the address it drives (R87, R164). -/
def storeAddress (i : Instr) (s : State) : Option Nat :=
  let x := s.chan s.ctl.channel
  let driven (pages : Pages) := (driveAddress x.currentAddress (pages.get s.ctl.channel)).toNat
  match i with
  | .mwr _ a _ => some a.toNat
  | .cycS1 _ pages => if !s.mustDriveHigh && x.writesBus then some (driven pages) else none
  | .cycS2 _ pages => if x.writesBus then some (driven pages) else none
  | _ => none

/-! ## What holds of every state the rules reach -/

/-- The RAM's lists are canonical and name only cells and rows that exist (R38, R39). -/
def Ram.canonical (r : Ram) : Prop :=
  Memory.wf r.data = true ∧ (∀ e ∈ r.data, e.1 < r.size) ∧ Deadlines.wf r.decayTimes = true ∧
    (∀ e ∈ r.decayTimes, e.1 < 2 ^ r.rowBits)

/-- `dAck` is true exactly in S3 and S4 (R36 c). -/
def DackInTransfer (s : State) : Prop := s.ctl.dAck = (s.ctl.state == .s3 || s.ctl.state == .s4)

/-- In Idle, S0, S1 and Yield the cache holds the sentinel (R36 d). -/
def CacheDropped (s : State) : Prop :=
  (s.ctl.state = .idle ∨ s.ctl.state = .s0 ∨ s.ctl.state = .s1 ∨ s.ctl.state = .yield) →
    s.ctl.highAddress = 0xffff#16

/-- The cache holds the sentinel or one byte (R35). -/
def CacheIsByteOrSentinel (s : State) : Prop :=
  s.ctl.highAddress = 0xffff#16 ∨ s.ctl.highAddress.toNat < 0x100

/-- The invariant of the block. -/
def Inv (s : State) : Prop :=
  s.ram.canonical ∧ DackInTransfer s ∧ CacheDropped s ∧ CacheIsByteOrSentinel s

/-- The bus belongs to the host: no transfer stands between its grant's start and its end (R313). -/
def busFree (s : State) : Bool := s.ctl.state == .idle || s.ctl.state == .s0 || s.ctl.state == .yield

end Sys2Proof.Machine
end

