-- ==== Sys2Proof/Certificates/Slice0/Obligations.lean ====
section
/-! DEFINITION. The statements for the provers.  Each docstring names the rules of spec/ it formalises; where a clause rests
on a decision the spec marks as its own, the decision is named.  Throughout, the bits of the command byte stand where
decision D1 puts them (R102), the fields of the mode byte where D2 does (R103). -/

open Sys2Proof Sys2Proof.Machine

/-! ## Decoding -/

/-- Decoding what `encode` writes gives the operation back, with every operand, for every row of the opcode table (R101,
R116, R117).  The 13-bit word is the spec's own packing (decision D27). -/
def Obligations.DecodeInvertsEncode : Prop :=
  ∀ i : Instr, decode (encode i) = .ok i

/-- The decoder agrees with the opcode table: a code that decodes is accepted by exactly one row, which reads the same
operation; a code that is refused is accepted by none (R101, R117). -/
def Obligations.DecoderReadsWhatTheTableReads : Prop :=
  ∀ c : Code, tableReadings c = (match decode c with | .ok i => [i] | .error _ => [])

/-- R118: a register access is decoded from `dir` and `addr` alone, the sixteen read rows and the sixteen write rows cover
all 32 combinations with no overlap, and the decoder is total on them. -/
def Obligations.RegisterRowsCoverWithoutOverlap : Prop :=
  readRows.length = 16 ∧ writeRows.length = 16 ∧
    ∀ (dir : Bool) (addr : BitVec 4), ∃ name : String,
      name ∈ (if dir then writeRows else readRows).map (fun r => r.mnemonic) ∧
        ∀ data : Byte,
          (opcodeTable.filter (fun r => (r.accepts (.reg (regWord dir addr data))).isSome)).map (fun r => r.mnemonic) =
              [name] ∧
            ∃ i, decode (.reg (regWord dir addr data)) = .ok i

/-- Words that the spec writes out in its test vectors decode to the operations it gives them; a value of 14 bits is no word
(R101; file 95, families 2.4 and programs P1, P2). -/
def Obligations.SpecWordsDecode : Prop :=
  decodeTableWord 16 0x1b45 = some (.wrMode 0x45#8) ∧ decodeTableWord 16 0x0800 = some .rdStatus ∧
    decodeTableWord 16 0x1210 = some (.wrAddr1 0x10#8) ∧ decodeTableWord 16 0x0300 = some .rdCnt1 ∧
    decodeTableWord 16 0x1904 = some (.wrRequest 0x04#8) ∧ decodeTableWord 16 0x0d00 = some .rdTemp ∧
    decodeTableWord 16 0x1d00 = some (.wrMclr 0x00#8) ∧ decodeTableWord 16 0x1f0d = some (.wrMaskAll 0x0d#8) ∧
    decodeTableWord 16 0x2000 = none

/-- A step runs the decoded operation.  With no call waiting nothing moves (R8); otherwise the oldest call, completed by the
latch and the state, decodes, and the step is that operation's meaning on the state with the call taken (R101, R160); a
`REG` word put where the next operation comes from is run with the latch holding its address.  That calls wait in a list is
the model's (log entry 4). -/
def Obligations.StepRunsTheDecodedOperation : Prop :=
  ∀ s : State,
    (s.inputs = [] → step s = .next s) ∧
      (∀ call rest, s.inputs = call :: rest →
        ∃ i, decode (call.code s.ctl.address s.ctl.state) = .ok i ∧ step s = exec i { s with inputs := rest }) ∧
      (∀ nbits w i, decodeTableWord nbits w = some i →
        step (s.withFetchWord nbits w) = exec i { s with ctl := { s.ctl with address := BitVec.ofNat 4 (w / 256) } })

/-! ## Power-on and the invariant -/

/-- The power-on state holds the values of R48's table, for every configuration and every value of the fields the table
leaves unspecified (decisions D15, D18, D20, D21), and the configuration's parameters, `TEMP_CLEAR_ON_READ` among them (R5;
that State holds it is log entry 11); the reset state is one of these states (log entries 1 and 3). -/
def Obligations.PowerOnHoldsTheResetValues : Prop :=
  (∀ (cfg : Config) (u : Unspecified),
    let s := State.powerOn cfg u
    s.ctl =
        { state := .idle, command := 0x00#8, channel := 3, address := u.latch, lastByte := false, temporary := 0x00#8,
          dAck := false, highAddress := 0xffff#16 } ∧
      (∀ c : ChanId,
        s.chan c =
          { mode := u.modes.get c, baseAddress := u.baseAddresses.get c, baseCount := u.baseCounts.get c,
            currentAddress := u.currentAddresses.get c, currentCount := u.currentCounts.get c, hardRequest := false,
            softRequest := false, internalRequest := false, mask := true, terminalCount := false } ∧
          (s.chan c).request = false) ∧
      (∀ tick a : Nat, s.ram.decayed tick a = true) ∧
      (cfg.decayTime = none → s.ram.decayTicks = (2 ^ cfg.rowBits * cfg.ticksPerSecond) / 64000) ∧
      (∀ t, cfg.decayTime = some t → s.ram.decayTicks = (t.num * cfg.ticksPerSecond) / t.den) ∧
      s.ram.size = cfg.ramSize ∧ s.ram.rowBits = cfg.rowBits ∧ s.ram.decayValue = cfg.decayValue ∧
      s.ram.data = u.data ∧ s.bus = u.bus ∧ s.tempClearOnRead = cfg.tempClearOnRead) ∧
    State.reset = State.powerOn Config.reference Unspecified.zero

/-- The invariant holds after power-on, for every configuration and every initial RAM of that size, and at the reset state
(R36, R48). -/
def Obligations.PowerOnMeetsTheInvariant : Prop :=
  (∀ (cfg : Config) (u : Unspecified), Memory.wf u.data = true → (∀ e ∈ u.data, e.1 < cfg.ramSize) →
    Inv (State.powerOn cfg u)) ∧
    Inv State.reset

/-- Every step keeps the invariant: the RAM's lists stay canonical and within its size and its rows (R38, R39), `dAck` is
true exactly in S3 and S4 (R36 c), the cache holds the sentinel in Idle, S0, S1 and Yield (R36 d), and the cache holds the
sentinel or one byte (R35).  R36 (c) and (d) are the spec's own inferences. -/
def Obligations.StepKeepsTheInvariant : Prop :=
  ∀ s t : State, Inv s → step s = .next t → Inv t

/-! ## The register port -/

/-- R190: SETA latches the low 4 bits of its operand, whatever the operand, and nothing else changes. -/
def Obligations.SetaLatchesTheLowFourBits : Prop :=
  ∀ (a : Nat) (s : State), ∃ t,
    exec (.seta a) s = .next t ∧ t.ctl = { s.ctl with address := BitVec.ofNat 4 a } ∧
      t.ctl.address.toNat = a % 16 ∧ SameChannels s t ∧ SameOutside s t ∧ t.returned = .nothing

/-- RD at an address 0 to 7 returns the byte of the current address or count that the toggle selects, the high one when it
is true (decision D7), flips the toggle, and changes nothing else (R193, R140). -/
def Obligations.ChannelReadReturnsTheSelectedHalf : Prop :=
  ∀ (c : ChanId) (sel : RegSelect) (s : State), ∃ t,
    let r := (match sel with | .address => (s.chan c).currentAddress | .count => (s.chan c).currentCount).toNat
    exec (rdChannelInstr c sel) s = .next t ∧
      t.returned = .byte (BitVec.ofNat 8 (if s.ctl.lastByte then r / 256 else r)) ∧
      t.ctl = { s.ctl with lastByte := !s.ctl.lastByte } ∧ SameChannels s t ∧ SameOutside s t

/-- Two reads of one register from a reset toggle return its low byte and then its high byte, and leave the toggle reset
(R108, R115's GETADDR and GETCNT; the sense of the toggle is decision D7). -/
def Obligations.TwoReadsReturnTheWholeRegister : Prop :=
  ∀ (c : ChanId) (sel : RegSelect) (s : State), s.ctl.lastByte = false →
    ∃ t u lo hi,
      exec (rdChannelInstr c sel) s = .next t ∧ exec (rdChannelInstr c sel) t = .next u ∧
        t.returned = .byte lo ∧ u.returned = .byte hi ∧
        ((match sel with | .address => (s.chan c).currentAddress | .count => (s.chan c).currentCount) : Word16) = hi ++ lo ∧
        u.ctl = s.ctl ∧ SameChannels s u ∧ SameOutside s u

/-- R194 and R141: WR at an address 0 to 7 puts the byte into the half that the toggle selects of both the base and the
current register, each keeping its own other half, and flips the toggle; nothing else changes, the terminal-count latch
included, and no arbitration is run (decision D12). -/
def Obligations.ChannelWriteMergesTheSelectedHalf : Prop :=
  ∀ (c : ChanId) (sel : RegSelect) (v : Byte) (s : State), ∃ t base current,
    exec (wrChannelInstr c sel v) s = .next t ∧
      (match sel with
       | .address =>
           base.toNat = mergedValue s.ctl.lastByte v (s.chan c).baseAddress ∧
             current.toNat = mergedValue s.ctl.lastByte v (s.chan c).currentAddress ∧
             t.chan c = { s.chan c with baseAddress := base, currentAddress := current }
       | .count =>
           base.toNat = mergedValue s.ctl.lastByte v (s.chan c).baseCount ∧
             current.toNat = mergedValue s.ctl.lastByte v (s.chan c).currentCount ∧
             t.chan c = { s.chan c with baseCount := base, currentCount := current }) ∧
      (∀ d, d ≠ c → t.chan d = s.chan d) ∧ t.ctl = { s.ctl with lastByte := !s.ctl.lastByte } ∧
      SameOutside s t ∧ t.returned = .nothing

/-- Two writes of one register from a reset toggle load a 16-bit value, low byte first, into the base and the current
register, whatever they held, and leave the toggle reset (R108, R115's SETADDR and SETCNT; decision D7). -/
def Obligations.TwoWritesLoadBaseAndCurrent : Prop :=
  ∀ (c : ChanId) (sel : RegSelect) (w : Word16) (s : State), s.ctl.lastByte = false →
    ∃ t u,
      exec (wrChannelInstr c sel (BitVec.ofNat 8 w.toNat)) s = .next t ∧
        exec (wrChannelInstr c sel (BitVec.ofNat 8 (w.toNat / 256))) t = .next u ∧
        u.chan c =
          (match sel with
           | .address => { s.chan c with baseAddress := w, currentAddress := w }
           | .count => { s.chan c with baseCount := w, currentCount := w }) ∧
        (∀ d, d ≠ c → u.chan d = s.chan d) ∧ u.ctl = s.ctl ∧ SameOutside s u

/-- RD at address 8 returns the four terminal-count latches in bits 3:0 and the four requests in bits 7:4 as they stand
before the read, and clears the latches (R195, R143, R107; that the upper bits are `request` is decision D11, that no
arbitration is run is decision D12). -/
def Obligations.StatusReadReportsThenClears : Prop :=
  ∀ s : State, ∃ t v,
    exec .rdStatus s = .next t ∧ t.returned = .byte v ∧
      (∀ c : ChanId,
        v.getLsbD c.val = (s.chan c).terminalCount ∧
          v.getLsbD (4 + c.val) =
            (((s.chan c).hardRequest && !(s.chan c).mask) || (s.chan c).softRequest || (s.chan c).internalRequest) ∧
          t.chan c = { s.chan c with terminalCount := false }) ∧
      t.ctl = s.ctl ∧ SameOutside s t

/-- RD at address 13 returns `temporary`, and clears it exactly when `TEMP_CLEAR_ON_READ` holds (R201; decision D10). -/
def Obligations.TemporaryReadReturnsThenClears : Prop :=
  ∀ s : State, ∃ t,
    exec .rdTemp s = .next t ∧ t.returned = .byte s.ctl.temporary ∧
      t.ctl = { s.ctl with temporary := if s.tempClearOnRead then 0x00#8 else s.ctl.temporary } ∧
      SameChannels s t ∧ SameOutside s t

/-- RD at an unmapped address returns a free byte and changes nothing of the block, the toggle included (R205; decision D9).
The free byte is the model's draw (log entry 2); the statement holds whatever it is. -/
def Obligations.UnmappedReadsChangeNothing : Prop :=
  ∀ i ∈ unmappedReads, ∀ s : State, ∃ t,
    exec i s = .next t ∧ t.returned = .byte (Config.drawByte s.draws) ∧ t.ctl = s.ctl ∧ SameChannels s t ∧
      SameRam s t ∧ t.bus = s.bus ∧ t.inputs = s.inputs ∧ t.draws = s.draws + 1

/-- WR at address 8 stores the whole byte in the command register and does nothing else (R196; decisions D3, D12); WR at
address 12 resets the byte toggle and does nothing else, whatever its data byte (R200; decision D8). -/
def Obligations.CommandWriteAndToggleReset : Prop :=
  (∀ (v : Byte) (s : State), ∃ t,
    exec (.wrCommand v) s = .next t ∧ t.ctl = { s.ctl with command := v } ∧ SameChannels s t ∧ SameOutside s t ∧
      t.returned = .nothing) ∧
    ∀ (v : Byte) (s : State), ∃ t,
      exec (.wrClrff v) s = .next t ∧ t.ctl = { s.ctl with lastByte := false } ∧ SameChannels s t ∧ SameOutside s t ∧
        t.returned = .nothing

/-- WR at address 11 stores the whole byte in the mode of the channel its bits 1:0 name and does nothing else (R199;
decisions D5, D12). -/
def Obligations.ModeWriteStoresTheWholeByte : Prop :=
  ∀ (v : Byte) (s : State), ∃ t,
    exec (.wrMode v) s = .next t ∧
      (∀ c : ChanId, t.chan c = if c.val = v.toNat % 4 then { s.chan c with mode := v } else s.chan c) ∧
      t.ctl = s.ctl ∧ SameOutside s t ∧ t.returned = .nothing

/-- The type is mode bits 3:2, the transfer mode bits 7:6, auto-initialization bit 4, decrement bit 5 (R145 to R148; the
positions and the order of the values are decision D2). -/
def Obligations.ModeQueriesReadTheModeByte : Prop :=
  ∀ x : Channel,
    x.transferType.number = x.mode.toNat / 4 % 4 ∧ x.transferMode.number = x.mode.toNat / 64 ∧
      (x.autoInitialization = true ↔ x.mode.toNat / 16 % 2 = 1) ∧
      (x.addressDecrement = true ↔ x.mode.toNat / 32 % 2 = 1)

/-- WR at address 9 sets the soft request of the channel in bits 1:0 to bit 2 of the byte, then runs the arbiter (R197; that
bit 2 is the value is decision D4). -/
def Obligations.RequestWriteSetsSoftRequestThenArbitrates : Prop :=
  ∀ (v : Byte) (s : State), ∃ m t,
    exec (.wrRequest v) s = .next t ∧
      (∀ c : ChanId, m.chan c = if c.val = v.toNat % 4 then { s.chan c with softRequest := v.getLsbD 2 } else s.chan c) ∧
      m.ctl = s.ctl ∧ SameChannels m t ∧ t.ctl = arbitratedCtl m ∧ SameOutside s t ∧ t.returned = .nothing

/-- WR at address 10 sets the mask of the channel in bits 1:0 to bit 2 of the byte, then runs the arbiter (R198; that bit 2
is the value is decision D4). -/
def Obligations.SingleMaskWriteSetsMaskThenArbitrates : Prop :=
  ∀ (v : Byte) (s : State), ∃ m t,
    exec (.wrMask1 v) s = .next t ∧
      (∀ c : ChanId, m.chan c = if c.val = v.toNat % 4 then { s.chan c with mask := v.getLsbD 2 } else s.chan c) ∧
      m.ctl = s.ctl ∧ SameChannels m t ∧ t.ctl = arbitratedCtl m ∧ SameOutside s t ∧ t.returned = .nothing

/-- WR at address 14 clears all four masks whatever its byte (R203, conflict C1), WR at address 15 sets each channel's mask to
the bit of its number (R204, decision D6); each touches nothing else of a channel and then runs the arbiter. -/
def Obligations.MaskRegisterWritesSetAllMasks : Prop :=
  (∀ (v : Byte) (s : State), ∃ m t,
    exec (.wrMclrMask v) s = .next t ∧ (∀ c : ChanId, m.chan c = { s.chan c with mask := false }) ∧ m.ctl = s.ctl ∧
      SameChannels m t ∧ t.ctl = arbitratedCtl m ∧ SameOutside s t ∧ t.returned = .nothing) ∧
    ∀ (v : Byte) (s : State), ∃ m t,
      exec (.wrMaskAll v) s = .next t ∧ (∀ c : ChanId, m.chan c = { s.chan c with mask := v.getLsbD c.val }) ∧
        m.ctl = s.ctl ∧ SameChannels m t ∧ t.ctl = arbitratedCtl m ∧ SameOutside s t ∧ t.returned = .nothing

/-- Master clear clears every channel, returns the controller to Idle with command, toggle, temporary latch and `dAck`
cleared and everything else of it kept (R202, R150, R301; decision D13), then runs the arbiter.  With no internal request
pending it ends in Idle; with one pending, the lowest channel that has one is granted at once, masked or not (R311). -/
def Obligations.MasterClearClearsThenArbitrates : Prop :=
  ∀ (v : Byte) (s : State), ∃ t,
    exec (.wrMclr v) s = .next t ∧
      (∀ c : ChanId, t.chan c = { s.chan c with mask := true, terminalCount := false, softRequest := false }) ∧
      SameOutside s t ∧ t.returned = .nothing ∧
      ((∀ c : ChanId, (s.chan c).internalRequest = false) →
        t.ctl =
          { s.ctl with state := .idle, command := 0x00#8, lastByte := false, temporary := 0x00#8, dAck := false,
                       highAddress := 0xffff#16 }) ∧
      ∀ c : ChanId, (s.chan c).internalRequest = true → (∀ d, d < c → (s.chan d).internalRequest = false) →
        t.ctl =
          { s.ctl with state := .s0, command := 0x00#8, lastByte := false, temporary := 0x00#8, dAck := false,
                       highAddress := 0xffff#16, channel := c }

/-! ## The handshake -/

/-- DREQ on a channel 0 to 3 sets its hard request, whatever the command byte says of polarity, then runs the arbiter (R240;
decision D14). -/
def Obligations.DreqSetsHardRequestThenArbitrates : Prop :=
  ∀ (c : ChanId) (s : State), ∃ m t,
    exec (.dreq c.val) s = .next t ∧ m.chan c = { s.chan c with hardRequest := true } ∧
      (∀ d, d ≠ c → m.chan d = s.chan d) ∧ m.ctl = s.ctl ∧ SameChannels m t ∧ t.ctl = arbitratedCtl m ∧
      SameOutside s t ∧ t.returned = .nothing

/-- R243: DONE on a channel 0 to 3 clears its hard request, then runs the arbiter. -/
def Obligations.DoneClearsHardRequestThenArbitrates : Prop :=
  ∀ (c : ChanId) (s : State), ∃ m t,
    exec (.dmaDone c.val) s = .next t ∧ m.chan c = { s.chan c with hardRequest := false } ∧
      (∀ d, d ≠ c → m.chan d = s.chan d) ∧ m.ctl = s.ctl ∧ SameChannels m t ∧ t.ctl = arbitratedCtl m ∧
      SameOutside s t ∧ t.returned = .nothing

/-- HRQ? moves S0 to S1, changes nothing in any other state, and reports whether the controller is not Idle (R241; that
Yield counts as not Idle is decision D30). -/
def Obligations.HoldRequestStartsAGrantedTransfer : Prop :=
  ∀ s : State, ∃ t,
    exec .hrq s = .next t ∧ t.returned = .flag (decide (s.ctl.state ≠ .idle)) ∧
      t.ctl = (if s.ctl.state = .s0 then { s.ctl with state := .s1 } else s.ctl) ∧ SameChannels s t ∧ SameOutside s t

/-- DACK? on a channel 0 to 3 reports whether that channel is the current one and `dAck` is asserted, whatever the polarity
bit, and changes nothing (R242; decision D14). -/
def Obligations.AcknowledgeQueryIsPure : Prop :=
  ∀ (c : ChanId) (s : State), ∃ t,
    exec (.dack c.val) s = .next t ∧ t.returned = .flag (decide (c = s.ctl.channel) && s.ctl.dAck) ∧ t.ctl = s.ctl ∧
      SameChannels s t ∧ SameOutside s t

/-- `dmaAcknowledged(c)` is true for at most one channel at a time, and in a state that meets the invariant only in S3 and S4
(S4 of file 95, R242). -/
def Obligations.AtMostOneChannelIsAcknowledged : Prop :=
  ∀ (c d : Nat) (s t u : State), exec (.dack c) s = .next t → exec (.dack d) s = .next u →
    t.returned = .flag true → u.returned = .flag true →
      c = d ∧ c = s.ctl.channel.val ∧ (Inv s → s.ctl.state = .s3 ∨ s.ctl.state = .s4)

/-- BUSDATA places its byte in the bus data latch and does nothing else (R244; decision D18). -/
def Obligations.BusdataFillsTheLatch : Prop :=
  ∀ (v : Byte) (s : State), ∃ t,
    exec (.busdata v) s = .next t ∧ t.bus = { s.bus with data := v } ∧ t.ctl = s.ctl ∧ SameChannels s t ∧ SameRam s t ∧
      SameEnvironment s t ∧ t.returned = .nothing

/-- No operation faults; the only refusals are a channel argument outside 0 to 3 (decision D26) and RAM.maintain (decision
D22); every other operation completes in every state (R9). -/
def Obligations.OnlyTheSpecsTwoRefusals : Prop :=
  (∀ (i : Instr) (s : State) (f : Fault), exec i s ≠ .fault f) ∧
    (∀ (i : Instr) (s : State) (r : Refusal), exec i s = .refused r ↔
      (∃ n, i = .ramMaintain n ∧ r = .maintainNotInHardware) ∨
        ∃ c, 4 ≤ c ∧ r = .channelOutOfRange c ∧ (i = .dreq c ∨ i = .dack c ∨ i = .dmaDone c)) ∧
    ∀ (i : Instr) (s : State), i.wellFormed = true → (∀ n, i ≠ .ramMaintain n) → ∃ t, exec i s = .next t

/-- RAM.maintain is refused in every state (R255; decision D22), and so is a channel argument above 3 to DREQ, DACK? and
DONE (decision D26). -/
def Obligations.MaintainAndChannelsOutOfRangeAreRefused : Prop :=
  (∀ (n : Nat) (s : State), exec (.ramMaintain n) s = .refused .maintainNotInHardware) ∧
    ∀ (c : Nat) (s : State), 4 ≤ c →
      exec (.dreq c) s = .refused (.channelOutOfRange c) ∧ exec (.dack c) s = .refused (.channelOutOfRange c) ∧
        exec (.dmaDone c) s = .refused (.channelOutOfRange c)

/-! ## The state machine -/

/-- R161: `CYC` in Idle writes the sentinel into the cache and does nothing else; no arbitration is run. -/
def Obligations.CycleInIdleOnlyDropsTheCache : Prop :=
  ∀ (now : Nat) (pages : Pages) (s : State), ∃ t,
    (∀ latch, (Invocation.simulateCycle now pages).select latch .idle = .cycIdle now pages) ∧
      exec (.cycIdle now pages) s = .next t ∧ t.ctl = { s.ctl with highAddress := 0xffff#16 } ∧ SameChannels s t ∧
      SameOutside s t ∧ t.returned = .nothing

/-- `CYC` in S0 changes nothing (R162; decision D24). -/
def Obligations.CycleInS0ChangesNothing : Prop :=
  ∀ (now : Nat) (pages : Pages) (s : State), ∃ t,
    exec (.cycS0 now pages) s = .next t ∧ t.ctl = s.ctl ∧ SameChannels s t ∧ SameOutside s t ∧ t.returned = .nothing

/-- `CYC` in S1 goes to S2 and does nothing else, unless timing is compressed (command bit 3, decision D1) and the current
channel's high address byte is the cached one; then it is the S2 action at once (R163). -/
def Obligations.CycleInS1AdvancesOrSkips : Prop :=
  ∀ (now : Nat) (pages : Pages) (s : State),
    let high := (s.chan s.ctl.channel).currentAddress.toNat / 256
    ((s.ctl.command.getLsbD 3 = false ∨ high ≠ s.ctl.highAddress.toNat) →
      ∃ t, exec (.cycS1 now pages) s = .next t ∧ t.ctl = { s.ctl with state := .s2 } ∧ SameChannels s t ∧
        SameOutside s t ∧ t.returned = .nothing) ∧
      (s.ctl.command.getLsbD 3 = true → high = s.ctl.highAddress.toNat →
        exec (.cycS1 now pages) s = exec (.cycS2 now pages) s)

/-- `CYC` in S2 on a channel that does not write the bus (Cascade mode, or a type other than Write): `dAck` is asserted, the
state is S3, and unless the mode is Cascade the high byte is cached and the full address is driven; no byte and no deadline
of the RAM changes (R164, R170, R111; decisions D16, D17, D28). -/
def Obligations.CycleInS2WithoutAStore : Prop :=
  ∀ (now : Nat) (pages : Pages) (s : State),
    let x := s.chan s.ctl.channel
    (x.transferMode = .cascade ∨ x.transferType ≠ .write) →
      ∃ t, exec (.cycS2 now pages) s = .next t ∧
        t.ctl =
          { s.ctl with
            dAck := true, state := .s3
            highAddress :=
              if x.transferMode = .cascade then s.ctl.highAddress else BitVec.ofNat 16 (x.currentAddress.toNat / 256) } ∧
        t.bus =
          (if x.transferMode = .cascade then s.bus
           else { s.bus with address := x.currentAddress.setWidth 32 ||| pages.get s.ctl.channel }) ∧
        SameChannels s t ∧ SameRam s t ∧ SameEnvironment s t ∧ t.returned = .nothing

/-- `CYC` in S2 on a Write transfer: besides what every transfer does there, the byte (`temporary` for channel 1 under
memory-to-memory, else the latched byte) is stored at the address driven if that is in range, that address's row is
refreshed, and no other byte and no other row's deadline changes (R164, R254; decisions D16, D17, D18). -/
def Obligations.CycleInS2StoresAByte : Prop :=
  ∀ (now : Nat) (pages : Pages) (s : State),
    let x := s.chan s.ctl.channel
    let a := driveAddress x.currentAddress (pages.get s.ctl.channel)
    let b := if s.ctl.channel = 1 ∧ s.ctl.command.getLsbD 0 = true then s.ctl.temporary else s.bus.data
    x.transferMode ≠ .cascade → x.transferType = .write →
      ∃ t, exec (.cycS2 now pages) s = .next t ∧
        t.ctl =
          { s.ctl with dAck := true, state := .s3, highAddress := BitVec.ofNat 16 (x.currentAddress.toNat / 256) } ∧
        a = x.currentAddress.setWidth 32 ||| pages.get s.ctl.channel ∧ t.bus = { address := a, data := b } ∧
        (a.toNat < s.ram.size → t.ram.byteAt a.toNat = b) ∧
        (∀ y : Nat, (y ≠ a.toNat ∨ s.ram.size ≤ y) → t.ram.byteAt y = s.ram.byteAt y) ∧
        (∀ row : Nat, t.ram.deadlineAt row =
          if row = a.toNat % 2 ^ s.ram.rowBits then now + s.ram.decayTicks else s.ram.deadlineAt row) ∧
        SameConfiguration s t ∧ SameChannels s t ∧ SameEnvironment s t ∧ t.returned = .nothing

/-- R165: `CYC` in S3 goes to S4 and does nothing else without compressed timing; with it, it is the S4 action at once. -/
def Obligations.CycleInS3AdvancesOrMerges : Prop :=
  ∀ (now : Nat) (pages : Pages) (s : State),
    (∀ latch, (Invocation.simulateCycle now pages).select latch .s3 = .cycS3 now pages) ∧
    (compressed s.ctl.command = false →
      ∃ t, exec (.cycS3 now pages) s = .next t ∧ t.ctl = { s.ctl with state := .s4 } ∧ SameChannels s t ∧
        SameOutside s t ∧ t.returned = .nothing) ∧
      (compressed s.ctl.command = true → exec (.cycS3 now pages) s = exec (.cycS4 now pages) s)

/-- `CYC` in S4 ends the transfer: `dAck` drops, the current channel is updated once (its address held only for channel 0
with command bit 1), no other channel changes but for an internal request, and command, latch and toggle stay (R166, R142). -/
def Obligations.CycleInS4CountsTheTransfer : Prop :=
  ∀ (now : Nat) (pages : Pages) (s : State), ∃ t,
    exec (.cycS4 now pages) s = .next t ∧
      SameButInternal
        ((s.chan s.ctl.channel).update (s.ctl.command.getLsbD 1 && decide (s.ctl.channel = 0))) (t.chan s.ctl.channel) ∧
      (∀ d, d ≠ s.ctl.channel → SameButInternal (s.chan d) (t.chan d)) ∧ t.ctl.dAck = false ∧
      t.ctl.command = s.ctl.command ∧ t.ctl.address = s.ctl.address ∧ t.ctl.lastByte = s.ctl.lastByte ∧
      t.ctl.highAddress = 0xffff#16 ∧ SameEnvironment s t ∧ t.returned = .nothing

/-- `CYC` in S4 reads a byte from the latched bus address exactly for a Read transfer that is not Cascade: the decay value of
a decayed row or beyond the size, else the stored byte, into the bus data latch and, for channel 0 under memory-to-memory,
into `temporary`; a live row is refreshed; no stored byte changes (R166, R253; decision D18). -/
def Obligations.CycleInS4FetchesAByte : Prop :=
  ∀ (now : Nat) (pages : Pages) (s : State), ∃ t,
    let x := s.chan s.ctl.channel
    let a := s.bus.address.toNat
    let live := now < s.ram.deadlineAt (a % 2 ^ s.ram.rowBits)
    exec (.cycS4 now pages) s = .next t ∧ SameConfiguration s t ∧ (∀ y : Nat, t.ram.byteAt y = s.ram.byteAt y) ∧
      ((x.transferType ≠ .read ∨ x.transferMode = .cascade) →
        t.bus = s.bus ∧ t.ctl.temporary = s.ctl.temporary ∧
          ∀ row : Nat, t.ram.deadlineAt row = s.ram.deadlineAt row) ∧
      (x.transferType = .read → x.transferMode ≠ .cascade →
        t.bus =
            { s.bus with data := if live ∧ a < s.ram.size then s.ram.byteAt a else s.ram.decayValue } ∧
          t.ctl.temporary =
            (if s.ctl.channel = 0 ∧ s.ctl.command.getLsbD 0 = true then t.bus.data else s.ctl.temporary) ∧
          ∀ row : Nat, t.ram.deadlineAt row =
            if live ∧ row = a % 2 ^ s.ram.rowBits then now + s.ram.decayTicks else s.ram.deadlineAt row)

/-- What `CYC` in S4 leaves to go on: the channel's internal request drops; a read by channel 0 under memory-to-memory raises
channel 1's; a Block transfer short of terminal count raises the partner's (memory-to-memory, channels 0 and 1) or its own; a
Single transfer short of terminal count ends in Yield with no grant; in every other case the arbiter runs from Idle (R166). -/
def Obligations.CycleInS4Continues : Prop :=
  ∀ (now : Nat) (pages : Pages) (s : State), ∃ t,
    let k := s.ctl.channel
    let x := s.chan k
    let m2m := s.ctl.command.getLsbD 0 = true
    let goesOn := (t.chan k).terminalCount = false
    exec (.cycS4 now pages) s = .next t ∧
      (∀ d : ChanId, (t.chan d).internalRequest = true ↔
        ((d ≠ k ∧ (s.chan d).internalRequest = true) ∨
          (x.transferType = .read ∧ x.transferMode ≠ .cascade ∧ k = 0 ∧ m2m ∧ d = 1) ∨
          (goesOn ∧ x.transferMode = .block ∧
            ((m2m ∧ k = 0 ∧ d = 1) ∨ (m2m ∧ k = 1 ∧ d = 0) ∨ (¬ (m2m ∧ k.val < 2) ∧ d = k))))) ∧
      (goesOn → x.transferMode = .single → t.ctl.state = .yield ∧ t.ctl.channel = k) ∧
      (¬ (goesOn ∧ x.transferMode = .single) → t.ctl = arbitratedCtl (beforeS4Arbitration s t))

/-- R167: `CYC` in Yield returns to Idle, which writes the sentinel, and runs the arbiter. -/
def Obligations.CycleInYieldArbitratesFromIdle : Prop :=
  ∀ (now : Nat) (pages : Pages) (s : State), ∃ m t,
    (∀ latch, (Invocation.simulateCycle now pages).select latch .yield = .cycYield now pages) ∧
      exec (.cycYield now pages) s = .next t ∧ SameChannels s m ∧
      m.ctl = { s.ctl with state := .idle, highAddress := 0xffff#16 } ∧ SameChannels m t ∧ t.ctl = arbitratedCtl m ∧
      SameOutside s t ∧ t.returned = .nothing

/-- A granted transfer without compressed timing takes four `CYC` from S1, whatever calls wait behind them: through S2, S3 and
S4, `dAck` true in S3 and S4, ending in Idle, Yield or S0 with the channel updated once (R169, R171, R320: inferences the
spec marks as its own). -/
def Obligations.TransferTakesFourCycles : Prop :=
  ∀ (s : State) (n1 n2 n3 n4 : Nat) (p1 p2 p3 p4 : Pages) (rest : List Invocation), s.ctl.state = .s1 →
    s.ctl.command.getLsbD 3 = false →
    s.inputs =
        .simulateCycle n1 p1 :: .simulateCycle n2 p2 :: .simulateCycle n3 p3 :: .simulateCycle n4 p4 :: rest →
      ∃ t1 t2 t3 t4,
        step s = .next t1 ∧ step t1 = .next t2 ∧ step t2 = .next t3 ∧ step t3 = .next t4 ∧
          t1.ctl.state = .s2 ∧ t2.ctl.state = .s3 ∧ t3.ctl.state = .s4 ∧
          (t4.ctl.state = .idle ∨ t4.ctl.state = .yield ∨ t4.ctl.state = .s0) ∧
          t1.ctl.dAck = s.ctl.dAck ∧ t2.ctl.dAck = true ∧ t3.ctl.dAck = true ∧ t4.ctl.dAck = false ∧
          t4.inputs = rest ∧
          SameButInternal
            ((s.chan s.ctl.channel).update (s.ctl.command.getLsbD 1 && decide (s.ctl.channel = 0)))
            (t4.chan s.ctl.channel)

/-- With compressed timing a granted transfer takes three `CYC` from S1 in every state that meets the invariant, whatever calls
wait behind them: the skip of S1 is never taken, S4 is never occupied, and `dAck` is true for one cycle (R169, R163 b, R320:
the spec's own inferences). -/
def Obligations.CompressedTransferTakesThreeCycles : Prop :=
  ∀ (s : State) (n1 n2 n3 : Nat) (p1 p2 p3 : Pages) (rest : List Invocation), Inv s → s.ctl.state = .s1 →
    s.ctl.command.getLsbD 3 = true →
    s.inputs = .simulateCycle n1 p1 :: .simulateCycle n2 p2 :: .simulateCycle n3 p3 :: rest →
      ∃ t1 t2 t3,
        step s = .next t1 ∧ step t1 = .next t2 ∧ step t2 = .next t3 ∧ t1.ctl.state = .s2 ∧ t2.ctl.state = .s3 ∧
          (t3.ctl.state = .idle ∨ t3.ctl.state = .yield ∨ t3.ctl.state = .s0) ∧
          t1.ctl.dAck = false ∧ t2.ctl.dAck = true ∧ t3.ctl.dAck = false ∧ t3.inputs = rest ∧
          SameButInternal
            ((s.chan s.ctl.channel).update (s.ctl.command.getLsbD 1 && decide (s.ctl.channel = 0)))
            (t3.chan s.ctl.channel)

/-- A grant is never withdrawn and never preempted: while the controller is not Idle, no operation other than master clear
and the arms of `CYC` in S3, S4 and Yield changes the channel in service or returns the controller to Idle (R186, R277,
R315). -/
def Obligations.AGrantIsNeverWithdrawn : Prop :=
  ∀ (s t : State) (i : Instr), s.nextInstr = some i → step s = .next t → s.ctl.state ≠ .idle →
    endsService i = false → t.ctl.channel = s.ctl.channel ∧ t.ctl.state ≠ .idle

/-- `ctl.state` moves only as R28 lists: the arbiter Idle to S0, HRQ? S0 to S1, `CYC` along the arms, master clear from any
state to Idle (where its arbitration may grant); no other operation writes it. -/
def Obligations.ControllerStateMovesAsListed : Prop :=
  ∀ (s t : State) (i : Instr), s.nextInstr = some i → step s = .next t →
    t.ctl.state = s.ctl.state ∨ phaseEdge i s.ctl.state t.ctl.state = true

/-! ## The arbiter -/

/-- R180, R181 and R183: nothing when disabled or not Idle; the special case first; else the first channel of the scan that
qualifies is granted, and with none nothing changes. -/
def Obligations.ArbiterFollowsItsProcedure : Prop :=
  ∀ s : State,
    let req (c : ChanId) : Bool :=
      ((s.chan c).hardRequest && !(s.chan c).mask) || (s.chan c).softRequest || (s.chan c).internalRequest
    let m2m := memToMem s.ctl.command
    let q (c : ChanId) : Bool :=
      if c = 0 ∧ m2m = true then req 0 && !(s.chan 1).terminalCount else req c && !(s.chan c).terminalCount
    (disabled s.ctl.command = true → checkForDMA s = s) ∧
      (s.ctl.state ≠ .idle → checkForDMA s = s) ∧
      (disabled s.ctl.command = false → s.ctl.state = .idle →
        checkForDMA s =
          if s.ctl.channel = 0 ∧ m2m = true ∧ req 0 = true ∧ (s.chan 1).terminalCount = false then
            { s with ctl := { s.ctl with channel := 1, state := .s0, highAddress := 0xffff#16 } }
          else
            match (scanOrder s).find? q with
            | some c => { s with ctl := { s.ctl with channel := c, state := .s0, highAddress := 0xffff#16 } }
            | none => s)

/-- Outside the special case the arbiter grants the qualifying channel of least rank: under fixed priority the lowest
number, under rotating priority the nearest past the channel last serviced, which itself ranks last (R182, R274; the scan
range is the spec's resolution of conflict C2). -/
def Obligations.ArbiterGrantsTheLeastRank : Prop :=
  ∀ (s : State) (c : ChanId),
    arbitrate s = some c ↔
      s.ctl.command.getLsbD 2 = false ∧ s.ctl.state = .idle ∧
        ((s.memToMemSpecial = true ∧ c = 1) ∨
          (s.memToMemSpecial = false ∧ s.qualifies c = true ∧
            ∀ d : ChanId, s.qualifies d = true → scanRank s c ≤ scanRank s d))

/-- Under rotating priority the channel last serviced is not granted again while another qualifies, some channel is granted,
and of two that qualify alone the other is: neither is starved (R182; property S3 of file 95, conflict C2). -/
def Obligations.RotatingPriorityAlternates : Prop :=
  ∀ (s : State) (d : ChanId), s.ctl.command.getLsbD 2 = false → s.ctl.command.getLsbD 4 = true →
    s.ctl.command.getLsbD 0 = false → s.ctl.state = .idle → d ≠ s.ctl.channel → s.qualifies d = true →
      arbitrate s ≠ some s.ctl.channel ∧ (∃ e, arbitrate s = some e) ∧
        ((∀ e : ChanId, s.qualifies e = true → e = s.ctl.channel ∨ e = d) → arbitrate s = some d)

/-- What the arbiter guarantees (R185, an inference the spec marks as its own; conflict C9): a granted channel requests and
is not at terminal count, but for channel 0 under memory-to-memory, which looks at channel 1's latch, and channel 1 in the
special case; a channel whose only request is a masked hard request is granted in no other way. -/
def Obligations.ArbiterNeverGrantsAMaskedHardRequest : Prop :=
  ∀ (s : State) (c : ChanId), arbitrate s = some c →
    (((s.chan c).request = true ∧ (s.chan c).terminalCount = false) ∨
        (c = 0 ∧ s.ctl.command.getLsbD 0 = true ∧ (s.chan 0).request = true ∧ (s.chan 1).terminalCount = false) ∨
        (c = 1 ∧ s.ctl.channel = 0 ∧ s.ctl.command.getLsbD 0 = true ∧ (s.chan 0).request = true ∧
          (s.chan 1).terminalCount = false)) ∧
      ((s.chan c).mask = true → (s.chan c).softRequest = false → (s.chan c).internalRequest = false →
        c = 1 ∧ s.memToMemSpecial = true)

/-! ## The RAM -/

/-- MRD reads the RAM through the bus: the decay value of a decayed row or beyond the size, else the stored byte, returned
and left in the data latch with the address in the address latch; a live row is refreshed; no stored byte, channel or
controller field changes (R87, R253; decision D18). -/
def Obligations.HostReadGoesThroughTheBus : Prop :=
  ∀ (now : Nat) (a : BusAddr) (s : State), ∃ t,
    let live := now < s.ram.deadlineAt (a.toNat % 2 ^ s.ram.rowBits)
    let v := if live ∧ a.toNat < s.ram.size then s.ram.byteAt a.toNat else s.ram.decayValue
    exec (.mrd now a) s = .next t ∧ t.returned = .byte v ∧ t.bus = { address := a, data := v } ∧ t.ctl = s.ctl ∧
      SameChannels s t ∧ (∀ y : Nat, t.ram.byteAt y = s.ram.byteAt y) ∧
      (∀ row : Nat, t.ram.deadlineAt row =
        if live ∧ row = a.toNat % 2 ^ s.ram.rowBits then now + s.ram.decayTicks else s.ram.deadlineAt row) ∧
      SameConfiguration s t ∧ SameEnvironment s t

/-- MWR writes the RAM through the bus: the byte is stored at its address if that is in range, that address's row is
refreshed whatever its deadline was, both latches are set, and no other byte, deadline, channel or controller field changes
(R87, R254; decision D18). -/
def Obligations.HostWriteGoesThroughTheBus : Prop :=
  ∀ (now : Nat) (a : BusAddr) (b : Byte) (s : State), ∃ t,
    exec (.mwr now a b) s = .next t ∧ t.returned = .nothing ∧ t.bus = { address := a, data := b } ∧ t.ctl = s.ctl ∧
      SameChannels s t ∧ (a.toNat < s.ram.size → t.ram.byteAt a.toNat = b) ∧
      (∀ y : Nat, (y ≠ a.toNat ∨ s.ram.size ≤ y) → t.ram.byteAt y = s.ram.byteAt y) ∧
      (∀ row : Nat, t.ram.deadlineAt row =
        if row = a.toNat % 2 ^ s.ram.rowBits then now + s.ram.decayTicks else s.ram.deadlineAt row) ∧
      SameConfiguration s t ∧ SameEnvironment s t

/-- R252: DECAYED? reports whether the tick is at or past the deadline of the address's row, for every address in range or
not, and changes nothing. -/
def Obligations.DecayedQueryIsPure : Prop :=
  ∀ (now a : Nat) (s : State), ∃ t,
    exec (.ramDecayed now a) s = .next t ∧
      t.returned = .flag (decide (now ≥ s.ram.deadlineAt (a % 2 ^ s.ram.rowBits))) ∧ t.ctl = s.ctl ∧
      SameChannels s t ∧ SameOutside s t

/-- R253 and R254: a read of a decayed row returns the decay value and changes nothing; a read of a live row refreshes it and
returns the stored byte, or the decay value beyond the size; a write refreshes the row always and stores the byte in range
only. -/
def Obligations.RamReadAndWriteFollowTheirRules : Prop :=
  ∀ (r : Ram) (tick a : Nat) (b : Byte),
    let row := a % 2 ^ r.rowBits
    (tick ≥ r.deadlineAt row → r.readValue tick a = r.decayValue ∧ r.afterRead tick a = r) ∧
      (tick < r.deadlineAt row →
        r.readValue tick a = (if a ≥ r.size then r.decayValue else r.byteAt a) ∧
          (r.afterRead tick a).data = r.data ∧
          ∀ q, (r.afterRead tick a).deadlineAt q = if q = row then tick + r.decayTicks else r.deadlineAt q) ∧
      (∀ q, (r.afterWrite tick a b).deadlineAt q = if q = row then tick + r.decayTicks else r.deadlineAt q) ∧
      (a ≥ r.size → (r.afterWrite tick a b).data = r.data) ∧
      (a < r.size → ∀ x, (r.afterWrite tick a b).byteAt x = if x = a then b else r.byteAt x)

/-- The two properties the source asks of the RAM (R258, an inference the spec marks as its own): a byte written in range is
read back before the new deadline and reads as the decay value from the deadline on; a read of a live row postpones its
deadline, seen by DECAYED?. -/
def Obligations.RamRoundTripAndRefreshByReading : Prop :=
  (∀ (s : State) (a : BusAddr) (b : Byte) (now later : Nat), a.toNat < s.ram.size →
    ∃ t u, exec (.mwr now a b) s = .next t ∧ exec (.mrd later a) t = .next u ∧
      (later < now + s.ram.decayTicks → u.returned = .byte b) ∧
      (now + s.ram.decayTicks ≤ later → u.returned = .byte s.ram.decayValue)) ∧
    ∀ (s : State) (a : BusAddr) (now later : Nat), now < s.ram.deadlineAt (a.toNat % 2 ^ s.ram.rowBits) →
      ∃ t u, exec (.mrd now a) s = .next t ∧ exec (.ramDecayed later a.toNat) t = .next u ∧
        u.returned = .flag (decide (now + s.ram.decayTicks ≤ later))

/-- A write to any address of a row, in range or not, makes every other address of that row readable with the byte it had,
however long the row had decayed (R254 a, R260 b, R303: the spec's own inferences). -/
def Obligations.AWriteRevivesTheWholeRow : Prop :=
  ∀ (s : State) (x y : BusAddr) (b : Byte) (now later : Nat), x ≠ y →
    x.toNat % 2 ^ s.ram.rowBits = y.toNat % 2 ^ s.ram.rowBits → x.toNat < s.ram.size →
    later < now + s.ram.decayTicks →
      ∃ t u, exec (.mwr now y b) s = .next t ∧ exec (.mrd later x) t = .next u ∧
        u.returned = .byte (s.ram.byteAt x.toNat)

/-- A byte of the RAM changes only where a write stores: the operand of MWR or the address driven by a Write transfer's S2
action, in range (R38, R164, R254; decisions D16, D17, D18). -/
def Obligations.BytesChangeOnlyWhereAWriteStores : Prop :=
  ∀ (s t : State) (i : Instr) (x : Nat), s.nextInstr = some i → step s = .next t →
    (storeAddress i s ≠ some x ∨ s.ram.size ≤ x) → t.ram.byteAt x = s.ram.byteAt x

/-! ## The channels -/

/-- R142: one update steps the address (unless it is held) and decrements the count, both modulo 65536; decrementing from 0
reloads both registers from the base registers under auto-initialization, held address included, and latches terminal count
otherwise; nothing else of the channel changes. -/
def Obligations.UpdateFollowsItsProcedure : Prop :=
  ∀ (x : Channel) (hold : Bool),
    let y := x.update hold
    y = { x with currentAddress := y.currentAddress, currentCount := y.currentCount, terminalCount := y.terminalCount } ∧
      (x.currentCount ≠ 0x0000#16 →
        y.currentAddress.toNat = steppedValue x hold ∧ y.currentCount.toNat = x.currentCount.toNat - 1 ∧
          y.terminalCount = x.terminalCount) ∧
      (x.currentCount = 0x0000#16 → x.autoInitialization = true →
        y.currentAddress = x.baseAddress ∧ y.currentCount = x.baseCount ∧ y.terminalCount = x.terminalCount) ∧
      (x.currentCount = 0x0000#16 → x.autoInitialization = false →
        y.currentAddress.toNat = steppedValue x hold ∧ y.currentCount = 0xffff#16 ∧ y.terminalCount = true)

/-- Terminal count comes exactly at transfer `count + 1`, 1 to 65536: without auto-initialization the latch is clear after
every smaller number of updates and set after that one; with it the registers are back at their base values then, and the
latch is never set by any number of updates (properties S1 and S2 of file 95, R142 a, conflict C11). -/
def Obligations.TerminalCountAfterCountPlusOneUpdates : Prop :=
  ∀ (x : Channel), x.terminalCount = false →
    let after (n : Nat) : Channel := (fun c : Channel => c.update false)^[n] x
    (x.autoInitialization = false →
      (∀ n, n ≤ x.currentCount.toNat → (after n).terminalCount = false) ∧
        (after (x.currentCount.toNat + 1)).terminalCount = true ∧
        (after (x.currentCount.toNat + 1)).currentCount = 0xffff#16) ∧
      (x.autoInitialization = true →
        (∀ n, (after n).terminalCount = false) ∧
          (after (x.currentCount.toNat + 1)).currentAddress = x.baseAddress ∧
          (after (x.currentCount.toNat + 1)).currentCount = x.baseCount)

/-- Who writes what (R21 to R26, R40 to R42, R206): base registers only a write at that channel's addresses 0 to 7, current
registers only such a write and the S4 action's update of the channel in service, the mode only a write at 11, the hard
request only DREQ and DONE, the soft request only a write at 9 and master clear, the internal request only the S4 action,
the mask only writes at 10, 13, 14 and 15; a terminal-count latch is cleared only by the status read and master clear and
set only by the S4 action on the channel in service; the configuration by nothing. -/
def Obligations.EachFieldHasItsWritersOnly : Prop :=
  ∀ (s t : State) (i : Instr) (c : ChanId), s.nextInstr = some i → step s = .next t →
    (writesRegistersOf i c = false →
      (t.chan c).baseAddress = (s.chan c).baseAddress ∧ (t.chan c).baseCount = (s.chan c).baseCount) ∧
      (writesRegistersOf i c = false → (countsTransfer i s = false ∨ c ≠ s.ctl.channel) →
        (t.chan c).currentAddress = (s.chan c).currentAddress ∧ (t.chan c).currentCount = (s.chan c).currentCount) ∧
      (countsTransfer i s = false → (t.chan c).internalRequest = (s.chan c).internalRequest) ∧
      (writesModeOf i c = false → (t.chan c).mode = (s.chan c).mode) ∧
      (writesHardOf i c = false → (t.chan c).hardRequest = (s.chan c).hardRequest) ∧
      (writesSoftOf i c = false → (t.chan c).softRequest = (s.chan c).softRequest) ∧
      (writesMask i = false → (t.chan c).mask = (s.chan c).mask) ∧
      ((s.chan c).terminalCount = true → (t.chan c).terminalCount = false → clearsTerminalCount i = true) ∧
      ((s.chan c).terminalCount = false → (t.chan c).terminalCount = true →
        countsTransfer i s = true ∧ c = s.ctl.channel) ∧
      SameConfiguration s t

/-- Loading what was saved of `s` into any block gives each field of R46's list the value it has in `s`; saving after any load
gives back what was loaded; the omitted fields take any values (R46, R47, U12).  That saving and loading are functions
beside `step`, and that a load keeps the configuration (R40 to R42, R5), is the model's choice (log entry 20). -/
def Obligations.SavedStateRoundTrips : Prop :=
  (∀ (s s2 : State) (u : Unsaved),
    let t := s2.load s.save u
    t.ctl.state = s.ctl.state ∧ t.ctl.command = s.ctl.command ∧ SameChannels s t ∧ t.ctl.lastByte = s.ctl.lastByte ∧
      t.ctl.channel = s.ctl.channel ∧ t.ctl.highAddress = s.ctl.highAddress ∧
      (∀ a : Nat, t.ram.byteAt a = s.ram.byteAt a) ∧ (∀ row : Nat, t.ram.deadlineAt row = s.ram.deadlineAt row)) ∧
  ∀ (s : State) (v : Saved) (u : Unsaved),
    (s.load v u).save = v ∧ (s.load v u).ctl.temporary = u.temporary ∧ (s.load v u).ctl.dAck = u.dAck ∧
      (s.load v u).ctl.address = u.address ∧ (s.load v u).bus = u.bus ∧ SameConfiguration s (s.load v u)
end

