-- ==== Sys2Proof/Laws/Decode.lean ====
section
/-! SUPPORT. The laws of the decoder: what a `REG` word packs comes out again, and every call of an agent decodes. -/

namespace Sys2Proof.Laws

/-- One bit of a `REG` word (R101). -/
theorem regWord_bit (d : Bool) (a : BitVec 4) (v : Byte) (i : Nat) :
    (regWord d a v).getLsbD i =
      if i < 8 then v.getLsbD i else if i < 12 then a.getLsbD (i - 8) else (decide (i = 12) && d) := by
  unfold regWord
  rw [BitVec.getLsbD_append, BitVec.getLsbD_append, BitVec.getLsbD_append]
  by_cases h1 : i < 8
  · have : i < 4 + 8 := by omega
    have : i < 1 + (4 + 8) := by omega
    simp [*]
  · by_cases h2 : i < 12
    · have : i < 4 + 8 := by omega
      have : i < 1 + (4 + 8) := by omega
      simp [*]
    · have h3 : ¬ i < 4 + 8 := by omega
      by_cases h4 : i = 12
      · subst h4; simp
      · have : ¬ i < 1 + (4 + 8) := by omega
        simp [*]

/-- Direction, address and data of a `REG` word (R101). -/
theorem regWord_fields (d : Bool) (a : BitVec 4) (v : Byte) :
    (regWord d a v).extractLsb' 13 3 = 0#3 ∧ (regWord d a v).getLsbD 12 = d ∧
      (regWord d a v).extractLsb' 8 4 = a ∧ (regWord d a v).extractLsb' 0 8 = v := by
  refine ⟨?_, ?_, ?_, ?_⟩
  · apply BitVec.eq_of_getLsbD_eq
    intro i hi
    rw [BitVec.getLsbD_extractLsb', regWord_bit, if_neg (by omega), if_neg (by omega)]
    have : ¬ 13 + i = 12 := by omega
    simp [this]
  · rw [regWord_bit]; simp
  · apply BitVec.eq_of_getLsbD_eq
    intro i hi
    rw [BitVec.getLsbD_extractLsb', regWord_bit, if_neg (by omega), if_pos (by omega)]
    simp [hi]
  · apply BitVec.eq_of_getLsbD_eq
    intro i hi
    rw [BitVec.getLsbD_extractLsb', regWord_bit, if_pos (by omega)]
    simp [hi]

/-- The row of a word written as its two bytes: five bits of the high one. -/
theorem word_and_mask (h v : Byte) : (h ++ v).toNat &&& 0x1f00 = (h.toNat &&& 0x1f) * 256 := by
  have hv := v.isLt
  rw [BitVec.toNat_append, ← Nat.shiftLeft_add_eq_or_of_lt hv, Nat.shiftLeft_eq]
  apply Nat.eq_of_testBit_eq
  intro i
  have h1 : (0x1f00 : Nat) = 0x1f * 2 ^ 8 := rfl
  have h2 : (256 : Nat) = 2 ^ 8 := rfl
  rw [Nat.testBit_and, h1, h2, Nat.testBit_mul_two_pow, Nat.testBit_mul_two_pow, Nat.testBit_and]
  by_cases hi : 8 ≤ i
  · have : (h.toNat * 2 ^ 8 + v.toNat).testBit i = h.toNat.testBit (i - 8) := by
      rw [Nat.mul_comm, Nat.testBit_two_pow_mul_add _ hv]; simp [Nat.not_lt.2 hi]
    rw [this]; simp [hi]
  · simp [hi]

/-- A word written as its two bytes is below 0x2000 when its high byte is below 0x20. -/
theorem word_lt (h v : Byte) : (h ++ v).toNat < 0x2000 ↔ h.toNat < 0x20 := by
  have hv := v.isLt
  rw [BitVec.toNat_append, ← Nat.shiftLeft_add_eq_or_of_lt hv, Nat.shiftLeft_eq]
  omega

/-- The data byte of a word written as its two bytes. -/
theorem word_data (h v : Byte) : BitVec.setWidth 8 (h ++ v) = v := by
  apply BitVec.eq_of_getLsbD_eq
  intro i hi
  rw [BitVec.getLsbD_setWidth, BitVec.getLsbD_append]
  simp [hi]

/-- A `REG` word decodes to the operation of its direction, address and data. -/
theorem decodeRegWord_regWord (d : Bool) (a : BitVec 4) (v : Byte) :
    decodeRegWord (regWord d a v) = .ok (regInstr d a v) := by
  obtain ⟨h1, h2, h3, h4⟩ := regWord_fields d a v
  rw [decodeRegWord, if_pos h1, h2, h3, h4]

theorem ofNumber_number (p : Phase) : Phase.ofNumber p.number = some p := by cases p <;> rfl

/-- The code of a call is never refused, and `Invocation.select` is what the decoder reads from it. -/
theorem decode_code (latch : BitVec 4) (phase : Phase) (call : Invocation) :
    decode (call.code latch phase) = .ok (call.select latch phase) := by
  cases call <;> simp [Invocation.code, Invocation.select, decode, decodeRegWord_regWord, ofNumber_number]

end Sys2Proof.Laws
end

