-- ==== Sys2Proof/Laws/Memory.lean ====
section
/-! SUPPORT. The laws of the sparse lists and of the RAM: read after write, a write leaves every other place alone, every
operation keeps the canonical form. -/

namespace Sys2Proof.Machine

section Sparse
variable {α : Type}

theorem Sparse.mem_erase {m : List (Nat × α)} {a : Nat} {e : Nat × α} :
    e ∈ Sparse.erase m a ↔ e ∈ m ∧ e.1 ≠ a := by
  induction m with
  | nil => simp [Sparse.erase]
  | cons p m ih =>
    obtain ⟨k, w⟩ := p
    by_cases h : k = a
    · simp only [Sparse.erase, h, if_true, ih, List.mem_cons]
      constructor
      · rintro ⟨h1, h2⟩; exact ⟨.inr h1, h2⟩
      · rintro ⟨rfl | h1, h2⟩
        · exact absurd rfl h2
        · exact ⟨h1, h2⟩
    · simp only [Sparse.erase, h, if_false, List.mem_cons, ih]
      constructor
      · rintro (rfl | ⟨h1, h2⟩)
        · exact ⟨.inl rfl, h⟩
        · exact ⟨.inr h1, h2⟩
      · rintro ⟨rfl | h1, h2⟩
        · exact .inl rfl
        · exact .inr ⟨h1, h2⟩

theorem Sparse.mem_place {m : List (Nat × α)} {a : Nat} {v : α} {e : Nat × α} :
    e ∈ Sparse.place m a v ↔ e = (a, v) ∨ e ∈ m := by
  induction m with
  | nil => simp [Sparse.place]
  | cons p m ih =>
    obtain ⟨k, w⟩ := p
    by_cases h : a < k
    · simp [Sparse.place, h]
    · simp only [Sparse.place, h, if_false, List.mem_cons, ih]
      tauto

theorem Sparse.lookup_erase_same (d : α) (m : List (Nat × α)) (a : Nat) :
    Sparse.lookup d (Sparse.erase m a) a = d := by
  induction m with
  | nil => rfl
  | cons p m ih =>
    obtain ⟨k, w⟩ := p
    by_cases h : k = a <;> simp [Sparse.erase, Sparse.lookup, h, ih]

theorem Sparse.lookup_erase_ne (d : α) (m : List (Nat × α)) {a b : Nat} (hb : b ≠ a) :
    Sparse.lookup d (Sparse.erase m a) b = Sparse.lookup d m b := by
  induction m with
  | nil => rfl
  | cons p m ih =>
    obtain ⟨k, w⟩ := p
    by_cases h : k = a
    · subst h; simp [Sparse.erase, Sparse.lookup, ih, Ne.symm hb]
    · by_cases h2 : k = b <;> simp [Sparse.erase, Sparse.lookup, h, h2, ih, hb]

theorem Sparse.lookup_place_same (d : α) {m : List (Nat × α)} {a : Nat} (v : α) (hm : ∀ e ∈ m, e.1 ≠ a) :
    Sparse.lookup d (Sparse.place m a v) a = v := by
  induction m with
  | nil => simp [Sparse.place, Sparse.lookup]
  | cons p m ih =>
    obtain ⟨k, w⟩ := p
    have hk : k ≠ a := hm (k, w) (by simp)
    by_cases h : a < k
    · simp [Sparse.place, Sparse.lookup, h]
    · simp [Sparse.place, Sparse.lookup, h, hk, ih fun e he => hm e (by simp [he])]

theorem Sparse.lookup_place_ne (d : α) (m : List (Nat × α)) {a b : Nat} (v : α) (hb : b ≠ a) :
    Sparse.lookup d (Sparse.place m a v) b = Sparse.lookup d m b := by
  induction m with
  | nil => simp [Sparse.place, Sparse.lookup, Ne.symm hb]
  | cons p m ih =>
    obtain ⟨k, w⟩ := p
    by_cases h : a < k
    · simp [Sparse.place, Sparse.lookup, h, Ne.symm hb]
    · simp only [Sparse.place, h, if_false, Sparse.lookup, ih]

variable [DecidableEq α]

/-- Read after write. -/
@[simp] theorem Sparse.lookup_store_same (d : α) (m : List (Nat × α)) (a : Nat) (v : α) :
    Sparse.lookup d (Sparse.store d m a v) a = v := by
  unfold Sparse.store
  split
  · rename_i h; rw [Sparse.lookup_erase_same, h]
  · exact Sparse.lookup_place_same d v fun e he => (Sparse.mem_erase.1 he).2

/-- A write leaves every other key alone. -/
theorem Sparse.lookup_store_ne (d : α) (m : List (Nat × α)) {a b : Nat} (v : α) (hb : b ≠ a) :
    Sparse.lookup d (Sparse.store d m a v) b = Sparse.lookup d m b := by
  unfold Sparse.store
  split
  · exact Sparse.lookup_erase_ne d m hb
  · rw [Sparse.lookup_place_ne d _ v hb, Sparse.lookup_erase_ne d m hb]

theorem Sparse.lookup_store (d : α) (m : List (Nat × α)) (a b : Nat) (v : α) :
    Sparse.lookup d (Sparse.store d m a v) b = if b = a then v else Sparse.lookup d m b := by
  split
  · rename_i h; rw [h, Sparse.lookup_store_same]
  · rename_i h; exact Sparse.lookup_store_ne d m v h

/-- What a written list names is the key written or was named before. -/
theorem Sparse.mem_store {d : α} {m : List (Nat × α)} {a : Nat} {v : α} {e : Nat × α}
    (h : e ∈ Sparse.store d m a v) : e.1 = a ∨ e ∈ m := by
  unfold Sparse.store at h
  split at h
  · exact .inr (Sparse.mem_erase.1 h).1
  · rcases Sparse.mem_place.1 h with rfl | h
    · exact .inl rfl
    · exact .inr (Sparse.mem_erase.1 h).1

theorem Sparse.wf_cons {d : α} {k : Nat} {v : α} {m : List (Nat × α)} :
    Sparse.wf d ((k, v) :: m) = true ↔ v ≠ d ∧ (∀ e ∈ m, k < e.1) ∧ Sparse.wf d m = true := by
  simp [Sparse.wf, and_assoc]

theorem Sparse.wf_erase {d : α} {m : List (Nat × α)} (a : Nat) (h : Sparse.wf d m = true) :
    Sparse.wf d (Sparse.erase m a) = true := by
  induction m with
  | nil => rfl
  | cons p m ih =>
    obtain ⟨k, w⟩ := p
    obtain ⟨h1, h2, h3⟩ := Sparse.wf_cons.1 h
    by_cases hk : k = a
    · simpa [Sparse.erase, hk] using ih h3
    · simp only [Sparse.erase, hk, if_false]
      exact Sparse.wf_cons.2 ⟨h1, fun e he => h2 e (Sparse.mem_erase.1 he).1, ih h3⟩

theorem Sparse.wf_place {d : α} {m : List (Nat × α)} {a : Nat} {v : α} (hv : v ≠ d) (hm : ∀ e ∈ m, e.1 ≠ a)
    (h : Sparse.wf d m = true) : Sparse.wf d (Sparse.place m a v) = true := by
  induction m with
  | nil => simp [Sparse.place, Sparse.wf, hv]
  | cons p m ih =>
    obtain ⟨k, w⟩ := p
    obtain ⟨h1, h2, h3⟩ := Sparse.wf_cons.1 h
    have hk : k ≠ a := hm (k, w) (by simp)
    by_cases hlt : a < k
    · simp only [Sparse.place, hlt, if_true]
      refine Sparse.wf_cons.2 ⟨hv, ?_, h⟩
      intro e he
      rcases List.mem_cons.1 he with rfl | he
      · exact hlt
      · exact hlt.trans (h2 e he)
    · simp only [Sparse.place, hlt, if_false]
      refine Sparse.wf_cons.2 ⟨h1, ?_, ih (fun e he => hm e (by simp [he])) h3⟩
      intro e he
      rcases Sparse.mem_place.1 he with rfl | he
      · show k < a; omega
      · exact h2 e he

/-- A write keeps the canonical form. -/
theorem Sparse.wf_store {d : α} {m : List (Nat × α)} (a : Nat) (v : α) (h : Sparse.wf d m = true) :
    Sparse.wf d (Sparse.store d m a v) = true := by
  unfold Sparse.store
  split
  · exact Sparse.wf_erase a h
  · rename_i hv
    exact Sparse.wf_place hv (fun e he => (Sparse.mem_erase.1 he).2) (Sparse.wf_erase a h)

end Sparse

/-! ## The RAM -/

/-- The row of an address is its remainder by the number of rows (R74). -/
theorem Ram.rowOf_eq_mod (r : Ram) (a : Nat) : r.rowOf a = a % 2 ^ r.rowBits := by
  rw [Ram.rowOf, Nat.one_shiftLeft, Nat.and_two_pow_sub_one_eq_mod]

theorem Ram.rowOf_lt (r : Ram) (a : Nat) : r.rowOf a < 2 ^ r.rowBits := by
  rw [Ram.rowOf_eq_mod]; exact Nat.mod_lt _ (Nat.two_pow_pos _)

theorem Ram.decayed_iff (r : Ram) (tick a : Nat) :
    r.decayed tick a = true ↔ r.deadlineAt (r.rowOf a) ≤ tick := by simp [Ram.decayed]

@[simp] theorem Ram.refresh_size (r : Ram) (t a : Nat) : (r.refresh t a).size = r.size := rfl
@[simp] theorem Ram.refresh_rowBits (r : Ram) (t a : Nat) : (r.refresh t a).rowBits = r.rowBits := rfl
@[simp] theorem Ram.refresh_decayTicks (r : Ram) (t a : Nat) : (r.refresh t a).decayTicks = r.decayTicks := rfl
@[simp] theorem Ram.refresh_decayValue (r : Ram) (t a : Nat) : (r.refresh t a).decayValue = r.decayValue := rfl
@[simp] theorem Ram.refresh_data (r : Ram) (t a : Nat) : (r.refresh t a).data = r.data := rfl
@[simp] theorem Ram.refresh_byteAt (r : Ram) (t a b : Nat) : (r.refresh t a).byteAt b = r.byteAt b := rfl
@[simp] theorem Ram.refresh_rowOf (r : Ram) (t a b : Nat) : (r.refresh t a).rowOf b = r.rowOf b := rfl

/-- A refresh moves one deadline (R253, R254). -/
theorem Ram.refresh_deadlineAt (r : Ram) (t a row : Nat) :
    (r.refresh t a).deadlineAt row = if row = r.rowOf a then t + r.decayTicks else r.deadlineAt row :=
  Sparse.lookup_store _ _ _ _ _

/-- A read changes no stored byte (R253). -/
@[simp] theorem Ram.afterRead_byteAt (r : Ram) (t a b : Nat) : (r.afterRead t a).byteAt b = r.byteAt b := by
  unfold Ram.afterRead; split <;> rfl

@[simp] theorem Ram.afterRead_size (r : Ram) (t a : Nat) : (r.afterRead t a).size = r.size := by
  unfold Ram.afterRead; split <;> rfl
@[simp] theorem Ram.afterRead_rowBits (r : Ram) (t a : Nat) : (r.afterRead t a).rowBits = r.rowBits := by
  unfold Ram.afterRead; split <;> rfl
@[simp] theorem Ram.afterRead_decayTicks (r : Ram) (t a : Nat) : (r.afterRead t a).decayTicks = r.decayTicks := by
  unfold Ram.afterRead; split <;> rfl
@[simp] theorem Ram.afterRead_decayValue (r : Ram) (t a : Nat) : (r.afterRead t a).decayValue = r.decayValue := by
  unfold Ram.afterRead; split <;> rfl

/-- What a read does to the deadlines (R253). -/
theorem Ram.afterRead_deadlineAt (r : Ram) (t a row : Nat) :
    (r.afterRead t a).deadlineAt row =
      if t < r.deadlineAt (r.rowOf a) ∧ row = r.rowOf a then t + r.decayTicks else r.deadlineAt row := by
  unfold Ram.afterRead
  split
  · rename_i h
    rw [Ram.decayed_iff] at h
    rw [if_neg (by omega)]
  · rename_i h
    rw [Ram.decayed_iff] at h
    rw [Ram.refresh_deadlineAt]
    have h' : t < r.deadlineAt (r.rowOf a) := by omega
    simp [h']

@[simp] theorem Ram.afterWrite_size (r : Ram) (t a : Nat) (b : Byte) : (r.afterWrite t a b).size = r.size := by
  unfold Ram.afterWrite; split <;> rfl
@[simp] theorem Ram.afterWrite_rowBits (r : Ram) (t a : Nat) (b : Byte) :
    (r.afterWrite t a b).rowBits = r.rowBits := by
  unfold Ram.afterWrite; split <;> rfl
@[simp] theorem Ram.afterWrite_decayTicks (r : Ram) (t a : Nat) (b : Byte) :
    (r.afterWrite t a b).decayTicks = r.decayTicks := by
  unfold Ram.afterWrite; split <;> rfl
@[simp] theorem Ram.afterWrite_decayValue (r : Ram) (t a : Nat) (b : Byte) :
    (r.afterWrite t a b).decayValue = r.decayValue := by
  unfold Ram.afterWrite; split <;> rfl
@[simp] theorem Ram.afterWrite_rowOf (r : Ram) (t a : Nat) (b : Byte) (x : Nat) :
    (r.afterWrite t a b).rowOf x = r.rowOf x := by
  unfold Ram.afterWrite; split <;> rfl

/-- What a write does to the stored bytes (R254). -/
theorem Ram.afterWrite_byteAt (r : Ram) (t a : Nat) (b : Byte) (x : Nat) :
    (r.afterWrite t a b).byteAt x = if a < r.size ∧ x = a then b else r.byteAt x := by
  unfold Ram.afterWrite Ram.inRange
  by_cases h : a < r.size
  · simp only [h, decide_true, if_true, true_and]
    exact Sparse.lookup_store _ _ _ _ _
  · simp [h]

/-- What a write does to the deadlines (R254). -/
theorem Ram.afterWrite_deadlineAt (r : Ram) (t a : Nat) (b : Byte) (row : Nat) :
    (r.afterWrite t a b).deadlineAt row = if row = r.rowOf a then t + r.decayTicks else r.deadlineAt row := by
  unfold Ram.afterWrite
  split <;> exact Ram.refresh_deadlineAt r t a row

/-- A refresh keeps the canonical form. -/
theorem Ram.canonical_refresh {r : Ram} (h : r.canonical) (t a : Nat) : (r.refresh t a).canonical := by
  obtain ⟨h1, h2, h3, h4⟩ := h
  refine ⟨h1, h2, Sparse.wf_store _ _ h3, ?_⟩
  intro e he
  rcases Sparse.mem_store he with h | h
  · rw [h]; exact r.rowOf_lt a
  · exact h4 e h

/-- A read keeps the canonical form. -/
theorem Ram.canonical_afterRead {r : Ram} (h : r.canonical) (t a : Nat) : (r.afterRead t a).canonical := by
  unfold Ram.afterRead
  split
  · exact h
  · exact Ram.canonical_refresh h t a

/-- A write keeps the canonical form. -/
theorem Ram.canonical_afterWrite {r : Ram} (h : r.canonical) (t a : Nat) (b : Byte) :
    (r.afterWrite t a b).canonical := by
  unfold Ram.afterWrite
  split
  · rename_i hr
    obtain ⟨h1, h2, h3, h4⟩ := Ram.canonical_refresh h t a
    refine ⟨Sparse.wf_store _ _ h1, ?_, h3, h4⟩
    intro e he
    rcases Sparse.mem_store he with h' | h'
    · rw [h']; simpa [Ram.inRange] using hr
    · exact h2 e h'
  · exact Ram.canonical_refresh h t a

/-- The RAM of the reset state is canonical. -/
theorem reset_memory_wf : Memory.wf State.reset.ram.data = true := rfl

end Sys2Proof.Machine
end

