-- ==== Sys2Proof/Laws/State.lean ====
section
/-! SUPPORT. One lemma per field per update of the state, and the laws of the four channels. -/

namespace Sys2Proof.Machine

/-! ## The four -/

theorem Quad.get_set {α : Type} (q : Quad α) (c d : ChanId) (x : α) :
    (q.set c x).get d = if d = c then x else q.get d := by
  revert c d
  simp [Fin.forall_fin_succ, Quad.get, Quad.set]

@[simp] theorem Quad.get_mapIdx {α : Type} (f : ChanId → α → α) (q : Quad α) (c : ChanId) :
    (q.mapIdx f).get c = f c (q.get c) := by
  revert c
  simp [Fin.forall_fin_succ, Quad.get, Quad.mapIdx]

@[simp] theorem Quad.get_all {α : Type} (x : α) (c : ChanId) : (Quad.all x).get c = x := by
  revert c
  simp [Fin.forall_fin_succ, Quad.get, Quad.all]

/-- Two fours agree when they agree at each number. -/
theorem Quad.ext_get {α : Type} {p q : Quad α} (h : ∀ c, p.get c = q.get c) : p = q := by
  have h0 := h 0
  have h1 := h 1
  have h2 := h 2
  have h3 := h 3
  cases p
  cases q
  simp_all [Quad.get]

@[simp] theorem Quad.set_get {α : Type} (q : Quad α) (c : ChanId) : q.set c (q.get c) = q :=
  Quad.ext_get fun d => by rw [Quad.get_set]; split <;> simp_all

/-! ## Updates of the state -/

/-- What a channel holds after one channel is replaced. -/
theorem State.chan_setChan (s : State) (c d : ChanId) (x : Channel) :
    (s.setChan c x).chan d = if d = c then x else s.chan d := Quad.get_set _ _ _ _

@[simp] theorem State.chan_setChan_same (s : State) (c : ChanId) (x : Channel) : (s.setChan c x).chan c = x := by
  simp [State.chan_setChan]

@[simp] theorem State.setChan_ctl (s : State) (c : ChanId) (x : Channel) : (s.setChan c x).ctl = s.ctl := rfl
@[simp] theorem State.setChan_ram (s : State) (c : ChanId) (x : Channel) : (s.setChan c x).ram = s.ram := rfl
@[simp] theorem State.setChan_bus (s : State) (c : ChanId) (x : Channel) : (s.setChan c x).bus = s.bus := rfl
@[simp] theorem State.setChan_inputs (s : State) (c : ChanId) (x : Channel) : (s.setChan c x).inputs = s.inputs := rfl
@[simp] theorem State.setChan_draws (s : State) (c : ChanId) (x : Channel) : (s.setChan c x).draws = s.draws := rfl
@[simp] theorem State.setChan_returned (s : State) (c : ChanId) (x : Channel) :
    (s.setChan c x).returned = s.returned := rfl
@[simp] theorem State.setChan_tempClearOnRead (s : State) (c : ChanId) (x : Channel) :
    (s.setChan c x).tempClearOnRead = s.tempClearOnRead := rfl

/-- What a channel holds after one channel is changed. -/
theorem State.chan_modChan (s : State) (c d : ChanId) (f : Channel → Channel) :
    (s.modChan c f).chan d = if d = c then f (s.chan c) else s.chan d := State.chan_setChan _ _ _ _

@[simp] theorem State.chan_modChan_same (s : State) (c : ChanId) (f : Channel → Channel) :
    (s.modChan c f).chan c = f (s.chan c) := by simp [State.chan_modChan]

@[simp] theorem State.modChan_ctl (s : State) (c : ChanId) (f : Channel → Channel) : (s.modChan c f).ctl = s.ctl := rfl
@[simp] theorem State.modChan_ram (s : State) (c : ChanId) (f : Channel → Channel) : (s.modChan c f).ram = s.ram := rfl
@[simp] theorem State.modChan_bus (s : State) (c : ChanId) (f : Channel → Channel) : (s.modChan c f).bus = s.bus := rfl
@[simp] theorem State.modChan_inputs (s : State) (c : ChanId) (f : Channel → Channel) :
    (s.modChan c f).inputs = s.inputs := rfl
@[simp] theorem State.modChan_draws (s : State) (c : ChanId) (f : Channel → Channel) :
    (s.modChan c f).draws = s.draws := rfl
@[simp] theorem State.modChan_returned (s : State) (c : ChanId) (f : Channel → Channel) :
    (s.modChan c f).returned = s.returned := rfl
@[simp] theorem State.modChan_tempClearOnRead (s : State) (c : ChanId) (f : Channel → Channel) :
    (s.modChan c f).tempClearOnRead = s.tempClearOnRead := rfl

@[simp] theorem State.setCtl_ctl (s : State) (x : Controller) : (s.setCtl x).ctl = x := rfl
@[simp] theorem State.setCtl_ch (s : State) (x : Controller) : (s.setCtl x).ch = s.ch := rfl
@[simp] theorem State.setCtl_chan (s : State) (x : Controller) (c : ChanId) : (s.setCtl x).chan c = s.chan c := rfl
@[simp] theorem State.setCtl_ram (s : State) (x : Controller) : (s.setCtl x).ram = s.ram := rfl
@[simp] theorem State.setCtl_bus (s : State) (x : Controller) : (s.setCtl x).bus = s.bus := rfl
@[simp] theorem State.setCtl_inputs (s : State) (x : Controller) : (s.setCtl x).inputs = s.inputs := rfl
@[simp] theorem State.setCtl_draws (s : State) (x : Controller) : (s.setCtl x).draws = s.draws := rfl
@[simp] theorem State.setCtl_returned (s : State) (x : Controller) : (s.setCtl x).returned = s.returned := rfl
@[simp] theorem State.setCtl_tempClearOnRead (s : State) (x : Controller) :
    (s.setCtl x).tempClearOnRead = s.tempClearOnRead := rfl

@[simp] theorem State.setRam_ram (s : State) (x : Ram) : (s.setRam x).ram = x := rfl
@[simp] theorem State.setRam_ch (s : State) (x : Ram) : (s.setRam x).ch = s.ch := rfl
@[simp] theorem State.setRam_chan (s : State) (x : Ram) (c : ChanId) : (s.setRam x).chan c = s.chan c := rfl
@[simp] theorem State.setRam_ctl (s : State) (x : Ram) : (s.setRam x).ctl = s.ctl := rfl
@[simp] theorem State.setRam_bus (s : State) (x : Ram) : (s.setRam x).bus = s.bus := rfl
@[simp] theorem State.setRam_inputs (s : State) (x : Ram) : (s.setRam x).inputs = s.inputs := rfl
@[simp] theorem State.setRam_draws (s : State) (x : Ram) : (s.setRam x).draws = s.draws := rfl
@[simp] theorem State.setRam_returned (s : State) (x : Ram) : (s.setRam x).returned = s.returned := rfl
@[simp] theorem State.setRam_tempClearOnRead (s : State) (x : Ram) :
    (s.setRam x).tempClearOnRead = s.tempClearOnRead := rfl

@[simp] theorem State.setBus_bus (s : State) (x : Bus) : (s.setBus x).bus = x := rfl
@[simp] theorem State.setBus_ch (s : State) (x : Bus) : (s.setBus x).ch = s.ch := rfl
@[simp] theorem State.setBus_chan (s : State) (x : Bus) (c : ChanId) : (s.setBus x).chan c = s.chan c := rfl
@[simp] theorem State.setBus_ctl (s : State) (x : Bus) : (s.setBus x).ctl = s.ctl := rfl
@[simp] theorem State.setBus_ram (s : State) (x : Bus) : (s.setBus x).ram = s.ram := rfl
@[simp] theorem State.setBus_inputs (s : State) (x : Bus) : (s.setBus x).inputs = s.inputs := rfl
@[simp] theorem State.setBus_draws (s : State) (x : Bus) : (s.setBus x).draws = s.draws := rfl
@[simp] theorem State.setBus_returned (s : State) (x : Bus) : (s.setBus x).returned = s.returned := rfl
@[simp] theorem State.setBus_tempClearOnRead (s : State) (x : Bus) :
    (s.setBus x).tempClearOnRead = s.tempClearOnRead := rfl

@[simp] theorem State.returning_returned (s : State) (r : Returned) : (s.returning r).returned = r := rfl
@[simp] theorem State.returning_ch (s : State) (r : Returned) : (s.returning r).ch = s.ch := rfl
@[simp] theorem State.returning_chan (s : State) (r : Returned) (c : ChanId) : (s.returning r).chan c = s.chan c := rfl
@[simp] theorem State.returning_ctl (s : State) (r : Returned) : (s.returning r).ctl = s.ctl := rfl
@[simp] theorem State.returning_ram (s : State) (r : Returned) : (s.returning r).ram = s.ram := rfl
@[simp] theorem State.returning_bus (s : State) (r : Returned) : (s.returning r).bus = s.bus := rfl
@[simp] theorem State.returning_inputs (s : State) (r : Returned) : (s.returning r).inputs = s.inputs := rfl
@[simp] theorem State.returning_draws (s : State) (r : Returned) : (s.returning r).draws = s.draws := rfl
@[simp] theorem State.returning_tempClearOnRead (s : State) (r : Returned) :
    (s.returning r).tempClearOnRead = s.tempClearOnRead := rfl

end Sys2Proof.Machine
end

