-- ==== Sys2Proof/Laws/Ops.lean ====
section
/-! SUPPORT. One law for each shared operation: all that it can do. -/

namespace Sys2Proof.Machine

/-! ## Entering a state, granting, arbitrating -/

@[simp] theorem enter_chan (p : Phase) (s : State) (c : ChanId) : (enter p s).chan c = s.chan c := rfl
@[simp] theorem enter_ch (p : Phase) (s : State) : (enter p s).ch = s.ch := rfl
@[simp] theorem enter_ram (p : Phase) (s : State) : (enter p s).ram = s.ram := rfl
@[simp] theorem enter_bus (p : Phase) (s : State) : (enter p s).bus = s.bus := rfl
@[simp] theorem enter_inputs (p : Phase) (s : State) : (enter p s).inputs = s.inputs := rfl
@[simp] theorem enter_draws (p : Phase) (s : State) : (enter p s).draws = s.draws := rfl
@[simp] theorem enter_returned (p : Phase) (s : State) : (enter p s).returned = s.returned := rfl
@[simp] theorem enter_tempClearOnRead (p : Phase) (s : State) : (enter p s).tempClearOnRead = s.tempClearOnRead := rfl

/-- What entering a state does to the controller (R168). -/
theorem enter_ctl (p : Phase) (s : State) :
    (enter p s).ctl =
      { s.ctl with state := p, highAddress := if Phase.dropsCache p then sentinel else s.ctl.highAddress } := rfl

/-- All that an arbitration does: the controller of a grant, or nothing (R180). -/
theorem checkForDMA_eq (s : State) : checkForDMA s = s.setCtl (arbitratedCtl s) := by
  unfold checkForDMA arbitratedCtl
  cases arbitrate s <;> rfl

@[simp] theorem checkForDMA_ctl (s : State) : (checkForDMA s).ctl = arbitratedCtl s := by rw [checkForDMA_eq]; rfl
@[simp] theorem checkForDMA_ch (s : State) : (checkForDMA s).ch = s.ch := by rw [checkForDMA_eq]; rfl
@[simp] theorem checkForDMA_chan (s : State) (c : ChanId) : (checkForDMA s).chan c = s.chan c := by
  rw [checkForDMA_eq]; rfl
@[simp] theorem checkForDMA_ram (s : State) : (checkForDMA s).ram = s.ram := by rw [checkForDMA_eq]; rfl
@[simp] theorem checkForDMA_bus (s : State) : (checkForDMA s).bus = s.bus := by rw [checkForDMA_eq]; rfl
@[simp] theorem checkForDMA_inputs (s : State) : (checkForDMA s).inputs = s.inputs := by rw [checkForDMA_eq]; rfl
@[simp] theorem checkForDMA_draws (s : State) : (checkForDMA s).draws = s.draws := by rw [checkForDMA_eq]; rfl
@[simp] theorem checkForDMA_returned (s : State) : (checkForDMA s).returned = s.returned := by
  rw [checkForDMA_eq]; rfl
@[simp] theorem checkForDMA_tempClearOnRead (s : State) : (checkForDMA s).tempClearOnRead = s.tempClearOnRead := by
  rw [checkForDMA_eq]; rfl

/-- An arbitration grants only from Idle, and then enters S0 with the sentinel in the cache (R180, R186). -/
theorem arbitratedCtl_cases (s : State) :
    (arbitrate s = none ∧ arbitratedCtl s = s.ctl) ∨
      (∃ c, arbitrate s = some c ∧ s.ctl.state = .idle ∧ arbitratedCtl s = grantedCtl s c) := by
  unfold arbitratedCtl
  cases h : arbitrate s with
  | none => exact .inl ⟨rfl, rfl⟩
  | some c =>
    refine .inr ⟨c, rfl, ?_, rfl⟩
    by_contra hs
    simp [arbitrate, hs] at h

/-! ## The bus -/

@[simp] theorem busSetAddress_chan (a : BusAddr) (s : State) (c : ChanId) : (busSetAddress a s).chan c = s.chan c := rfl
@[simp] theorem busSetAddress_ctl (a : BusAddr) (s : State) : (busSetAddress a s).ctl = s.ctl := rfl
@[simp] theorem busSetAddress_ram (a : BusAddr) (s : State) : (busSetAddress a s).ram = s.ram := rfl
@[simp] theorem busSetAddress_bus (a : BusAddr) (s : State) : (busSetAddress a s).bus = { s.bus with address := a } := rfl
@[simp] theorem busRead_chan (t : Nat) (s : State) (c : ChanId) : (busRead t s).chan c = s.chan c := rfl
@[simp] theorem busRead_ctl (t : Nat) (s : State) : (busRead t s).ctl = s.ctl := rfl
@[simp] theorem busRead_ram (t : Nat) (s : State) : (busRead t s).ram = s.ram.afterRead t s.bus.address.toNat := rfl
@[simp] theorem busRead_bus (t : Nat) (s : State) :
    (busRead t s).bus = { s.bus with data := busReadValue t s } := rfl
@[simp] theorem busWriteLatched_chan (t : Nat) (s : State) (c : ChanId) :
    (busWriteLatched t s).chan c = s.chan c := rfl
@[simp] theorem busWriteLatched_ctl (t : Nat) (s : State) : (busWriteLatched t s).ctl = s.ctl := rfl
@[simp] theorem busWriteLatched_ram (t : Nat) (s : State) :
    (busWriteLatched t s).ram = s.ram.afterWrite t s.bus.address.toNat s.bus.data := rfl
@[simp] theorem busWriteLatched_bus (t : Nat) (s : State) : (busWriteLatched t s).bus = s.bus := rfl
@[simp] theorem busWriteByte_chan (t : Nat) (b : Byte) (s : State) (c : ChanId) :
    (busWriteByte t b s).chan c = s.chan c := rfl
@[simp] theorem busWriteByte_ctl (t : Nat) (b : Byte) (s : State) : (busWriteByte t b s).ctl = s.ctl := rfl
@[simp] theorem busWriteByte_ram (t : Nat) (b : Byte) (s : State) :
    (busWriteByte t b s).ram = s.ram.afterWrite t s.bus.address.toNat b := rfl
@[simp] theorem busWriteByte_bus (t : Nat) (b : Byte) (s : State) :
    (busWriteByte t b s).bus = { s.bus with data := b } := rfl

/-! ## The transfer actions -/

/-- The S2 action, case by case (R164): Cascade, no bus write, a bus write. -/
theorem actionS2_cases (t : Nat) (pages : Pages) (s : State) :
    let x := s.chan s.ctl.channel
    let s1 := s.setCtl { s.ctl with dAck := true }
    (x.transferMode = .cascade ∧ actionS2 t pages s = enter .s3 s1) ∨
      (x.transferMode ≠ .cascade ∧ x.transferType ≠ .write ∧ actionS2 t pages s = enter .s3 (s2Drive pages s1)) ∨
      (x.transferMode ≠ .cascade ∧ x.transferType = .write ∧
        actionS2 t pages s = enter .s3 (s2Write t (s2Drive pages s1))) := by
  intro x s1
  by_cases h1 : x.transferMode = .cascade
  · exact .inl ⟨h1, by simp [actionS2, x, s1, h1]⟩
  · by_cases h2 : x.transferType = .write
    · exact .inr (.inr ⟨h1, h2, by simp [actionS2, x, s1, h1, h2]⟩)
    · exact .inr (.inl ⟨h1, h2, by simp [actionS2, x, s1, h1, h2]⟩)

/-- The S2 action changes no channel, and of the controller `dAck`, the state and the cache (R164). -/
theorem actionS2_chan (t : Nat) (pages : Pages) (s : State) (c : ChanId) : (actionS2 t pages s).chan c = s.chan c := by
  rcases actionS2_cases t pages s with ⟨-, h⟩ | ⟨-, -, h⟩ | ⟨-, -, h⟩ <;> rw [h]
  · rfl
  · rfl
  · simp only [enter_chan, s2Write]; split <;> rfl

/-- The controller after the S2 action (R164). -/
theorem actionS2_ctl (t : Nat) (pages : Pages) (s : State) :
    (actionS2 t pages s).ctl =
      { s.ctl with
        dAck := true
        state := .s3
        highAddress :=
          if (s.chan s.ctl.channel).transferMode = .cascade then s.ctl.highAddress
          else highCache (s.chan s.ctl.channel).currentAddress } := by
  rcases actionS2_cases t pages s with ⟨h1, h⟩ | ⟨h1, -, h⟩ | ⟨h1, -, h⟩ <;> rw [h]
  · simp [h1, enter_ctl, Phase.dropsCache]
  · simp [h1, enter_ctl, Phase.dropsCache, s2Drive]
  · simp only [h1, enter_ctl, Phase.dropsCache, s2Write]; split <;> simp [s2Drive]

/-- A channel's registers and flags other than the internal request are not touched by the read phase of S4 (R166). -/
theorem s4Fetch_chan (t : Nat) (s : State) (c : ChanId) : SameButInternal (s.chan c) ((s4Fetch t s).chan c) := by
  unfold s4Fetch SameButInternal
  split
  · split
    · rw [State.chan_modChan]
      split
      · rename_i h; subst h; rfl
      · rfl
    · rfl
  · rfl

/-- The read phase of S4 changes of the controller only `temporary` (R166). -/
theorem s4Fetch_ctl (t : Nat) (s : State) :
    (s4Fetch t s).ctl = { s.ctl with temporary := (s4Fetch t s).ctl.temporary } := by
  unfold s4Fetch
  split
  · split <;> rfl
  · rfl

/-- The RAM after the read phase of S4 (R166). -/
theorem s4Fetch_ram (t : Nat) (s : State) :
    (s4Fetch t s).ram =
      if (s.chan s.ctl.channel).readsBus then s.ram.afterRead t s.bus.address.toNat else s.ram := by
  unfold s4Fetch
  split
  · split <;> rfl
  · rfl

@[simp] theorem s4Count_ram (s : State) : (s4Count s).ram = s.ram := rfl
@[simp] theorem s4Count_bus (s : State) : (s4Count s).bus = s.bus := rfl

/-- The controller after the end of a transfer, before what goes on (R166). -/
theorem s4Count_ctl (s : State) :
    (s4Count s).ctl = { s.ctl with dAck := false, state := .idle, highAddress := sentinel } := rfl

/-- What goes on after a transfer (R166): nothing, a yield, or an internal request raised. -/
theorem s4Continue_cases (s : State) :
    s4Continue s = s ∨ s4Continue s = enter .yield s ∨
      ∃ c, s4Continue s = s.modChan c (Channel.setInternal true) := by
  unfold s4Continue
  simp only
  split
  · exact .inl rfl
  · split
    · exact .inr (.inl rfl)
    · split
      · exact .inr (.inr ⟨_, rfl⟩)
      · exact .inr (.inr ⟨_, rfl⟩)
    · exact .inl rfl
    · exact .inl rfl

@[simp] theorem s4Continue_ram (s : State) : (s4Continue s).ram = s.ram := by
  rcases s4Continue_cases s with h | h | ⟨c, h⟩ <;> rw [h] <;> rfl
@[simp] theorem s4Continue_bus (s : State) : (s4Continue s).bus = s.bus := by
  rcases s4Continue_cases s with h | h | ⟨c, h⟩ <;> rw [h] <;> rfl

@[simp] theorem actionS4_ram (t : Nat) (s : State) : (actionS4 t s).ram = (s4Fetch t s).ram := by simp [actionS4]
@[simp] theorem actionS4_bus (t : Nat) (s : State) : (actionS4 t s).bus = (s4Fetch t s).bus := by simp [actionS4]

/-- The controller after the S4 action: Yield, or Idle with an arbitration (R166). -/
theorem actionS4_ctl (t : Nat) (s : State) :
    let base : Controller :=
      { s.ctl with dAck := false, state := .idle, highAddress := sentinel, temporary := (s4Fetch t s).ctl.temporary }
    (actionS4 t s).ctl = { base with state := .yield } ∨ (actionS4 t s).ctl = base ∨
      ∃ c, (actionS4 t s).ctl = { base with channel := c, state := .s0 } := by
  intro base
  have hb : (s4Count (s4Fetch t s)).ctl = base := by rw [s4Count_ctl, s4Fetch_ctl]
  have hsen : base.highAddress = sentinel := rfl
  have key : ∀ m : State, m.ctl = base →
      arbitratedCtl m = base ∨ ∃ c, arbitratedCtl m = { base with channel := c, state := .s0 } := by
    intro m hm
    rcases arbitratedCtl_cases m with ⟨-, h⟩ | ⟨c, -, -, h⟩
    · exact .inl (h.trans hm)
    · refine .inr ⟨c, ?_⟩
      rw [h, grantedCtl, hm]
      simp [base, sentinel]
  rw [actionS4, checkForDMA_ctl]
  rcases s4Continue_cases (s4Count (s4Fetch t s)) with h | h | ⟨c, h⟩ <;> rw [h]
  · exact .inr (key _ hb)
  · refine .inl ?_
    rcases arbitratedCtl_cases (enter .yield (s4Count (s4Fetch t s))) with ⟨-, h⟩ | ⟨c, -, hs, -⟩
    · rw [h, enter_ctl, hb]; simp [base, sentinel, Phase.dropsCache]
    · simp [enter_ctl] at hs
  · exact .inr (key _ (by simpa using hb))

end Sys2Proof.Machine
end

