-- ==== Sys2Proof/Laws/PerInstr.lean ====
section
/-! SUPPORT. A family of laws with one lemma per constructor of `Instr`: the code of an operation is accepted by exactly one
row of the opcode table, its own, which reads the operation back. -/

namespace Sys2Proof.Laws

/-- Exactly one row of the table accepts the code of the operation, and it reads that operation with its operands. -/
def TableReading.Statement (i : Instr) : Prop := tableReadings (encode i) = [i]

theorem TableReading.rdAddr0 : TableReading.Statement .rdAddr0 := rfl
theorem TableReading.rdCnt0 : TableReading.Statement .rdCnt0 := rfl
theorem TableReading.rdAddr1 : TableReading.Statement .rdAddr1 := rfl
theorem TableReading.rdCnt1 : TableReading.Statement .rdCnt1 := rfl
theorem TableReading.rdAddr2 : TableReading.Statement .rdAddr2 := rfl
theorem TableReading.rdCnt2 : TableReading.Statement .rdCnt2 := rfl
theorem TableReading.rdAddr3 : TableReading.Statement .rdAddr3 := rfl
theorem TableReading.rdCnt3 : TableReading.Statement .rdCnt3 := rfl
theorem TableReading.rdStatus : TableReading.Statement .rdStatus := rfl
theorem TableReading.rdUnmapped9 : TableReading.Statement .rdUnmapped9 := rfl
theorem TableReading.rdUnmapped10 : TableReading.Statement .rdUnmapped10 := rfl
theorem TableReading.rdUnmapped11 : TableReading.Statement .rdUnmapped11 := rfl
theorem TableReading.rdUnmapped12 : TableReading.Statement .rdUnmapped12 := rfl
theorem TableReading.rdTemp : TableReading.Statement .rdTemp := rfl
theorem TableReading.rdUnmapped14 : TableReading.Statement .rdUnmapped14 := rfl
theorem TableReading.rdUnmapped15 : TableReading.Statement .rdUnmapped15 := rfl
theorem TableReading.wrAddr0 (v : Byte) : TableReading.Statement (.wrAddr0 v) := by
  simp [TableReading.Statement, tableReadings, opcodeTable, readRows, writeRows, callRows, regRow, clkRow, callRow, encode,
    word_and_mask, word_lt, word_data]
theorem TableReading.wrCnt0 (v : Byte) : TableReading.Statement (.wrCnt0 v) := by
  simp [TableReading.Statement, tableReadings, opcodeTable, readRows, writeRows, callRows, regRow, clkRow, callRow, encode,
    word_and_mask, word_lt, word_data]
theorem TableReading.wrAddr1 (v : Byte) : TableReading.Statement (.wrAddr1 v) := by
  simp [TableReading.Statement, tableReadings, opcodeTable, readRows, writeRows, callRows, regRow, clkRow, callRow, encode,
    word_and_mask, word_lt, word_data]
theorem TableReading.wrCnt1 (v : Byte) : TableReading.Statement (.wrCnt1 v) := by
  simp [TableReading.Statement, tableReadings, opcodeTable, readRows, writeRows, callRows, regRow, clkRow, callRow, encode,
    word_and_mask, word_lt, word_data]
theorem TableReading.wrAddr2 (v : Byte) : TableReading.Statement (.wrAddr2 v) := by
  simp [TableReading.Statement, tableReadings, opcodeTable, readRows, writeRows, callRows, regRow, clkRow, callRow, encode,
    word_and_mask, word_lt, word_data]
theorem TableReading.wrCnt2 (v : Byte) : TableReading.Statement (.wrCnt2 v) := by
  simp [TableReading.Statement, tableReadings, opcodeTable, readRows, writeRows, callRows, regRow, clkRow, callRow, encode,
    word_and_mask, word_lt, word_data]
theorem TableReading.wrAddr3 (v : Byte) : TableReading.Statement (.wrAddr3 v) := by
  simp [TableReading.Statement, tableReadings, opcodeTable, readRows, writeRows, callRows, regRow, clkRow, callRow, encode,
    word_and_mask, word_lt, word_data]
theorem TableReading.wrCnt3 (v : Byte) : TableReading.Statement (.wrCnt3 v) := by
  simp [TableReading.Statement, tableReadings, opcodeTable, readRows, writeRows, callRows, regRow, clkRow, callRow, encode,
    word_and_mask, word_lt, word_data]
theorem TableReading.wrCommand (v : Byte) : TableReading.Statement (.wrCommand v) := by
  simp [TableReading.Statement, tableReadings, opcodeTable, readRows, writeRows, callRows, regRow, clkRow, callRow, encode,
    word_and_mask, word_lt, word_data]
theorem TableReading.wrRequest (v : Byte) : TableReading.Statement (.wrRequest v) := by
  simp [TableReading.Statement, tableReadings, opcodeTable, readRows, writeRows, callRows, regRow, clkRow, callRow, encode,
    word_and_mask, word_lt, word_data]
theorem TableReading.wrMask1 (v : Byte) : TableReading.Statement (.wrMask1 v) := by
  simp [TableReading.Statement, tableReadings, opcodeTable, readRows, writeRows, callRows, regRow, clkRow, callRow, encode,
    word_and_mask, word_lt, word_data]
theorem TableReading.wrMode (v : Byte) : TableReading.Statement (.wrMode v) := by
  simp [TableReading.Statement, tableReadings, opcodeTable, readRows, writeRows, callRows, regRow, clkRow, callRow, encode,
    word_and_mask, word_lt, word_data]
theorem TableReading.wrClrff (v : Byte) : TableReading.Statement (.wrClrff v) := by
  simp [TableReading.Statement, tableReadings, opcodeTable, readRows, writeRows, callRows, regRow, clkRow, callRow, encode,
    word_and_mask, word_lt, word_data]
theorem TableReading.wrMclr (v : Byte) : TableReading.Statement (.wrMclr v) := by
  simp [TableReading.Statement, tableReadings, opcodeTable, readRows, writeRows, callRows, regRow, clkRow, callRow, encode,
    word_and_mask, word_lt, word_data]
theorem TableReading.wrMclrMask (v : Byte) : TableReading.Statement (.wrMclrMask v) := by
  simp [TableReading.Statement, tableReadings, opcodeTable, readRows, writeRows, callRows, regRow, clkRow, callRow, encode,
    word_and_mask, word_lt, word_data]
theorem TableReading.wrMaskAll (v : Byte) : TableReading.Statement (.wrMaskAll v) := by
  simp [TableReading.Statement, tableReadings, opcodeTable, readRows, writeRows, callRows, regRow, clkRow, callRow, encode,
    word_and_mask, word_lt, word_data]
theorem TableReading.seta (a : Nat) : TableReading.Statement (.seta a) := rfl
theorem TableReading.dreq (c : Nat) : TableReading.Statement (.dreq c) := rfl
theorem TableReading.hrq : TableReading.Statement .hrq := rfl
theorem TableReading.dack (c : Nat) : TableReading.Statement (.dack c) := rfl
theorem TableReading.dmaDone (c : Nat) : TableReading.Statement (.dmaDone c) := rfl
theorem TableReading.busdata (v : Byte) : TableReading.Statement (.busdata v) := rfl
theorem TableReading.cycIdle (now : Nat) (pages : Pages) : TableReading.Statement (.cycIdle now pages) := rfl
theorem TableReading.cycS0 (now : Nat) (pages : Pages) : TableReading.Statement (.cycS0 now pages) := rfl
theorem TableReading.cycS1 (now : Nat) (pages : Pages) : TableReading.Statement (.cycS1 now pages) := rfl
theorem TableReading.cycS2 (now : Nat) (pages : Pages) : TableReading.Statement (.cycS2 now pages) := rfl
theorem TableReading.cycS3 (now : Nat) (pages : Pages) : TableReading.Statement (.cycS3 now pages) := rfl
theorem TableReading.cycS4 (now : Nat) (pages : Pages) : TableReading.Statement (.cycS4 now pages) := rfl
theorem TableReading.cycYield (now : Nat) (pages : Pages) : TableReading.Statement (.cycYield now pages) := rfl
theorem TableReading.mrd (now : Nat) (a : BusAddr) : TableReading.Statement (.mrd now a) := rfl
theorem TableReading.mwr (now : Nat) (a : BusAddr) (b : Byte) : TableReading.Statement (.mwr now a b) := rfl
theorem TableReading.ramDecayed (now : Nat) (a : Nat) : TableReading.Statement (.ramDecayed now a) := rfl
theorem TableReading.ramMaintain (ticks : Nat) : TableReading.Statement (.ramMaintain ticks) := rfl

end Sys2Proof.Laws
end

