-- ==== Sys2Proof/Tests/Slice0.lean ====
section
/-! SUPPORT. Tests.  Every expected value is read from spec/: the encodings of file 30, the vectors of file 95 (its
identifiers stand in the comments), or a rule named in the comment.  The witnesses at the end show, for each statement with
hypotheses, a state and operands that meet them, and, for one with several clauses, each clause at a boundary. -/

namespace Sys2Proof.Tests

open Sys2Proof Sys2Proof.Machine

/-! ## Helpers: one step on a small state -/

/-- The next state of an operation, if it has one. -/
def ran (i : Instr) (s : State) : Option State :=
  match exec i s with
  | .next t => some t
  | _ => none

/-- One field of the next state. -/
def after {α : Type} (i : Instr) (s : State) (f : State → α) : Option α := (ran i s).map f

/-- The reset state with one channel changed. -/
def withChan (c : ChanId) (f : Channel → Channel) : State := State.reset.modChan c f

/-- A state with its controller changed. -/
def withCtl (s : State) (f : Controller → Controller) : State := s.setCtl (f s.ctl)

/-- A channel in service at a state of the sequencer, with its mode, address and count, under a command byte. -/
def inService (p : Phase) (k : ChanId) (command mode : Byte) (address count : Word16) : State :=
  withCtl
    (withChan k (fun x => { x with mode := mode, currentAddress := address, currentCount := count }))
    (fun c => { c with state := p, channel := k, command := command, dAck := p == .s3 || p == .s4 })

/-- Page lookups that give 0, and one page for all channels. -/
def noPages : Pages := Quad.all 0#32
def onePage (p : BusAddr) : Pages := Quad.all p

/-- The RAM of program P3: 16 bytes, 4 rows, 10 ticks, with bytes and deadlines given. -/
def smallRam (data : Memory) (deadlines : Deadlines) : State :=
  State.reset.setRam
    { size := 16, rowBits := 2, data := data, decayTimes := deadlines, decayTicks := 10, decayValue := 0xff#8 }

/-- The lowest channels' requests for the arbiter's vectors: unmasked hard requests. -/
def asking (cs : List ChanId) (s : State) : State :=
  cs.foldl (fun t c => t.modChan c (fun x => { x with hardRequest := true, mask := false })) s

/-! ## Well-formedness (R9, decision D26) -/

theorem test_dreq_four_is_ill_formed : (Instr.dreq 4).wellFormed = false := by decide
theorem test_dack_four_is_ill_formed : (Instr.dack 4).wellFormed = false := by decide
theorem test_done_four_is_ill_formed : (Instr.dmaDone 4).wellFormed = false := by decide
theorem test_channel_three_is_well_formed :
    ((Instr.dreq 3).wellFormed && (Instr.dack 3).wellFormed && (Instr.dmaDone 3).wellFormed) = true := by decide

/-! ## Decoding: the word of each row, `dir`, `addr` and `data` written out in bits (R101, R109, R110) -/

theorem test_decode_read_rows_low :
    [0b0000000000000, 0b0000100000000, 0b0001000000000, 0b0001100000000, 0b0010000000000, 0b0010100000000,
      0b0011000000000, 0b0011100000000].map (decodeTableWord 16) =
    [.rdAddr0, .rdCnt0, .rdAddr1, .rdCnt1, .rdAddr2, .rdCnt2, .rdAddr3, .rdCnt3].map some := by decide

theorem test_decode_read_rows_high :
    [0b0100000000000, 0b0100100000000, 0b0101000000000, 0b0101100000000, 0b0110000000000, 0b0110100000000,
      0b0111000000000, 0b0111100000000].map (decodeTableWord 16) =
    [.rdStatus, .rdUnmapped9, .rdUnmapped10, .rdUnmapped11, .rdUnmapped12, .rdTemp, .rdUnmapped14,
      .rdUnmapped15].map some := by decide

theorem test_decode_write_rows_low :
    [0b1000010000001, 0b1000110000001, 0b1001010000001, 0b1001110000001, 0b1010010000001, 0b1010110000001,
      0b1011010000001, 0b1011110000001].map (decodeTableWord 16) =
    [.wrAddr0 0x81#8, .wrCnt0 0x81#8, .wrAddr1 0x81#8, .wrCnt1 0x81#8, .wrAddr2 0x81#8, .wrCnt2 0x81#8,
      .wrAddr3 0x81#8, .wrCnt3 0x81#8].map some := by decide

theorem test_decode_write_rows_high :
    [0b1100010000001, 0b1100110000001, 0b1101010000001, 0b1101110000001, 0b1110010000001, 0b1110110000001,
      0b1111010000001, 0b1111110000001].map (decodeTableWord 16) =
    [.wrCommand 0x81#8, .wrRequest 0x81#8, .wrMask1 0x81#8, .wrMode 0x81#8, .wrClrff 0x81#8, .wrMclr 0x81#8,
      .wrMclrMask 0x81#8, .wrMaskAll 0x81#8].map some := by decide

/-- A read has no input byte: the data bits of its word say nothing (R117). -/
theorem test_decode_read_ignores_data : decodeTableWord 16 0b0100011111111 = some .rdStatus := by decide

/-- A `REG` word has 13 bits (R101): a fourteenth is refused by name. -/
theorem test_decode_refuses_fourteen_bits : decode (.reg 0b0010000000000000#16) = .error .notARegWord := by rfl

/-- The states' numbers (R112) select the arms of `CYC`; 7 is none. -/
theorem test_decode_cycle_rows :
    decode (.simulateCycle 0 9 noPages) = .ok (.cycIdle 9 noPages) ∧
      decode (.simulateCycle 1 9 noPages) = .ok (.cycS0 9 noPages) ∧
      decode (.simulateCycle 2 9 noPages) = .ok (.cycS1 9 noPages) ∧
      decode (.simulateCycle 3 9 noPages) = .ok (.cycS2 9 noPages) ∧
      decode (.simulateCycle 4 9 noPages) = .ok (.cycS3 9 noPages) ∧
      decode (.simulateCycle 5 9 noPages) = .ok (.cycS4 9 noPages) ∧
      decode (.simulateCycle 6 9 noPages) = .ok (.cycYield 9 noPages) ∧
      decode (.simulateCycle 7 9 noPages) = .error .notAStateNumber := ⟨rfl, rfl, rfl, rfl, rfl, rfl, rfl, rfl⟩

/-- The calls without a bit encoding (R116). -/
theorem test_decode_calls :
    decode (.setAddress 0x1b) = .ok (.seta 0x1b) ∧ decode (.dmaRequest 1) = .ok (.dreq 1) ∧
      decode .dmaRequested = .ok .hrq ∧ decode (.dmaAcknowledged 1) = .ok (.dack 1) ∧
      decode (.dmaComplete 1) = .ok (.dmaDone 1) ∧ decode (.busData 0x5a#8) = .ok (.busdata 0x5a#8) ∧
      decode (.busRead 7 5#32) = .ok (.mrd 7 5#32) ∧ decode (.busWrite 0 5#32 0x11#8) = .ok (.mwr 0 5#32 0x11#8) ∧
      decode (.ramDecayed 9 5) = .ok (.ramDecayed 9 5) ∧ decode (.ramMaintain 3) = .ok (.ramMaintain 3) :=
  ⟨rfl, rfl, rfl, rfl, rfl, rfl, rfl, rfl, rfl, rfl⟩

/-! ## The register port: RG vectors -/

/-- CH-R1 to CH-R4: the four bytes of a channel's registers. -/
def channel0Loaded : State := withChan 0 (fun x => { x with currentAddress := 0x1234#16, currentCount := 0xabcd#16 })
def toggled (s : State) : State := withCtl s (fun c => { c with lastByte := true })

theorem test_ch_r1 : after .rdAddr0 channel0Loaded State.returned = some (.byte 0x34#8) := by decide
theorem test_ch_r2 : after .rdAddr0 (toggled channel0Loaded) State.returned = some (.byte 0x12#8) := by decide
theorem test_ch_r3 : after .rdCnt0 channel0Loaded State.returned = some (.byte 0xcd#8) := by decide
theorem test_ch_r4 : after .rdCnt0 (toggled channel0Loaded) State.returned = some (.byte 0xab#8) := by decide
theorem test_rg2 : after .rdCnt1 (withChan 1 (fun x => { x with currentCount := 0x0002#16 }))
    (fun t => (t.returned, t.ctl.lastByte)) = some (.byte 0x02#8, true) := by decide
/-- The other channels' rows reach their own registers (R109). -/
theorem test_rd_reaches_its_channel :
    [(Instr.rdAddr1, 1), (.rdAddr2, 2), (.rdAddr3, 3)].all (fun e =>
      after e.1 (withChan e.2 (fun x => { x with currentAddress := 0x0077#16 })) State.returned
        == some (.byte 0x77#8)) = true := by decide
theorem test_rd_count_reaches_its_channel :
    [(Instr.rdCnt2, 2), (.rdCnt3, 3)].all (fun e =>
      after e.1 (withChan e.2 (fun x => { x with currentCount := 0x0077#16 })) State.returned
        == some (.byte 0x77#8)) = true := by decide

/-- CH-W1, CH-W2. -/
theorem test_ch_w1 :
    after (.wrAddr0 0xaa#8) (withChan 0 (fun x => { x with baseAddress := 0x1234#16, currentAddress := 0x5678#16 }))
      (fun t => ((t.chan 0).baseAddress, (t.chan 0).currentAddress)) = some (0x12aa#16, 0x56aa#16) := by decide
theorem test_ch_w2 :
    after (.wrCnt0 0xff#8)
      (toggled (withChan 0 (fun x => { x with baseCount := 0x0001#16, currentCount := 0x0000#16 })))
      (fun t => ((t.chan 0).baseCount, (t.chan 0).currentCount)) = some (0xff01#16, 0xff00#16) := by decide
/-- RG-5: the high byte written first. -/
theorem test_rg5 : after (.wrAddr0 0x34#8) (toggled State.reset)
    (fun t => ((t.chan 0).currentAddress, t.ctl.lastByte)) = some (0x3400#16, false) := by decide
theorem test_wr_reaches_its_channel :
    [(Instr.wrAddr1 0x77#8, 1), (.wrAddr2 0x77#8, 2), (.wrAddr3 0x77#8, 3)].all (fun e =>
      after e.1 State.reset (fun t => ((t.chan e.2).baseAddress, (t.chan e.2).currentAddress, t.ctl.lastByte))
        == some (0x0077#16, 0x0077#16, true)) = true := by decide
theorem test_wr_count_reaches_its_channel :
    [(Instr.wrCnt1 0x77#8, 1), (.wrCnt2 0x77#8, 2), (.wrCnt3 0x77#8, 3)].all (fun e =>
      after e.1 State.reset (fun t => ((t.chan e.2).baseCount, (t.chan e.2).currentCount, t.ctl.lastByte))
        == some (0x0077#16, 0x0077#16, true)) = true := by decide

theorem test_rg1 : after (.seta 0x1b) State.reset (fun t => t.ctl.address) = some 11#4 := by decide
/-- RG-7, RG-9. -/
theorem test_rg7 :
    after .rdStatus (withChan 1 (fun x => { x with terminalCount := true, softRequest := true }))
      (fun t => (t.returned, (t.chan 1).terminalCount)) = some (.byte 0x22#8, false) := by decide
theorem test_rg9 :
    after .rdStatus
      (((withChan 0 (fun x => { x with terminalCount := true })).modChan 3 (fun x => { x with terminalCount := true })).modChan
        2 (Channel.setSoft true)) State.returned = some (.byte 0x49#8) := by decide
/-- RG-10, RG-25: the command is stored and no arbitration is run. -/
theorem test_rg10 : after (.wrCommand 0x19#8) State.reset (fun t => t.ctl.command) = some 0x19#8 := by decide
theorem test_rg25 :
    after (.wrCommand 0x00#8) (asking [1] (withCtl State.reset (fun c => { c with command := 0x04#8 })))
      (fun t => (t.ctl.command, t.ctl.state)) = some (0x00#8, .idle) := by decide
theorem test_rg11 : after (.wrRequest 0x04#8) State.reset
    (fun t => ((t.chan 0).softRequest, t.ctl.state, t.ctl.channel)) = some (true, .s0, 0) := by decide
theorem test_rg13 : after (.wrRequest 0xfe#8) State.reset (fun t => (t.chan 2).softRequest) = some true := by decide
theorem test_rg14 : after (.wrMask1 0x01#8) (withChan 1 (Channel.setHard true))
    (fun t => ((t.chan 1).mask, t.ctl.state, t.ctl.channel)) = some (false, .s0, 1) := by decide
theorem test_rg15 : after (.wrMask1 0x05#8) (withChan 1 (Channel.setMask false)) (fun t => (t.chan 1).mask) =
    some true := by decide
theorem test_rg16 : after (.wrMode 0x45#8) State.reset (fun t => ((t.chan 1).mode, t.ctl.state)) =
    some (0x45#8, .idle) := by decide
theorem test_rg17 : after (.wrClrff 0xab#8) (toggled State.reset) (fun t => t.ctl.lastByte) = some false := by decide
/-- RG-18, with `TEMP_CLEAR_ON_READ` true and false. -/
theorem test_rg18 :
    after .rdTemp (withCtl State.reset (fun c => { c with temporary := 0xbb#8 }))
      (fun t => (t.returned, t.ctl.temporary)) = some (.byte 0xbb#8, 0x00#8) := by decide
theorem test_rg18_kept :
    after .rdTemp { withCtl State.reset (fun c => { c with temporary := 0xbb#8 }) with tempClearOnRead := false }
      (fun t => (t.returned, t.ctl.temporary)) = some (.byte 0xbb#8, 0xbb#8) := by decide
/-- RG-19, with the latch at 0. -/
theorem test_rg19 :
    after (.wrMclr 0x00#8)
      (toggled ((inService .s3 2 0x10#8 0x0a#8 0 0).modChan 2 (fun x => { x with hardRequest := true, mask := false })))
      (fun t => (t.ctl, (t.chan 2).hardRequest, (t.chan 2).mask)) =
      some
        ({ state := .idle, command := 0x00#8, channel := 2, address := 0#4, lastByte := false, temporary := 0x00#8,
           dAck := false, highAddress := 0xffff#16 }, true, true) := by decide
theorem test_rg20 : after (.wrMclr 0x00#8) (withChan 3 (Channel.setInternal true))
    (fun t => (t.ctl.state, t.ctl.channel)) = some (.s0, 3) := by decide
theorem test_rg21 : after (.wrMclrMask 0x00#8) (withChan 2 (Channel.setHard true))
    (fun t => ((t.chan 0).mask, t.ctl.state, t.ctl.channel)) = some (false, .s0, 2) := by decide
theorem test_rg22 : after (.wrMaskAll 0x0d#8) State.reset
    (fun t => ((t.chan 0).mask, (t.chan 1).mask, (t.chan 2).mask, (t.chan 3).mask)) =
      some (true, false, true, true) := by decide
theorem test_rg23 : after (.wrMaskAll 0xf0#8) State.reset
    (fun t => ((t.chan 0).mask, (t.chan 1).mask, (t.chan 2).mask, (t.chan 3).mask)) =
      some (false, false, false, false) := by decide
/-- RG-24: nothing of the block changes, the toggle included. -/
theorem test_rg24 :
    unmappedReads.all (fun i =>
      after i (toggled channel0Loaded) (fun t => (t.ch, t.ctl, t.ram, t.bus))
        == some ((toggled channel0Loaded).ch, (toggled channel0Loaded).ctl, (toggled channel0Loaded).ram,
            (toggled channel0Loaded).bus)) = true := by decide

/-! ## The handshake: HS vectors -/

theorem test_hs1 : after (.dreq 1) (withChan 1 (Channel.setMask false))
    (fun t => ((t.chan 1).hardRequest, t.ctl.state, t.ctl.channel)) = some (true, .s0, 1) := by decide
theorem test_hs2 : after (.dreq 1) State.reset (fun t => ((t.chan 1).hardRequest, t.ctl.state)) =
    some (true, .idle) := by decide
theorem test_hs4 : after .hrq (withCtl State.reset (fun c => { c with state := .s0 }))
    (fun t => (t.returned, t.ctl.state, t.ctl.highAddress)) = some (.flag true, .s1, 0xffff#16) := by decide
theorem test_hs6 : after .hrq (withCtl State.reset (fun c => { c with state := .yield }))
    (fun t => (t.returned, t.ctl.state)) = some (.flag true, .yield) := by decide
theorem test_hs8 : after (.dack 1) (inService .s3 1 0x00#8 0x45#8 0 0) State.returned = some (.flag true) := by decide
theorem test_hs8_other : after (.dack 0) (inService .s3 1 0x00#8 0x45#8 0 0) State.returned =
    some (.flag false) := by decide
theorem test_hs12 : after (.dmaDone 1) (asking [1] (inService .s0 1 0x00#8 0x45#8 0 0))
    (fun t => ((t.chan 1).hardRequest, t.ctl.state)) = some (false, .s0) := by decide
theorem test_hs13 :
    after (.dmaDone 1) (asking [1, 2] (withChan 1 (fun x => { x with terminalCount := true })))
      (fun t => ((t.chan 1).hardRequest, t.ctl.state, t.ctl.channel)) = some (false, .s0, 2) := by decide
theorem test_hs14 : after (.busdata 0x5a#8) State.reset (fun t => t.bus.data) = some 0x5a#8 := by decide
theorem test_maintain_refused : exec (.ramMaintain 1) State.reset = .refused .maintainNotInHardware := by rfl

/-! ## The state machine: CY vectors -/

theorem test_cy1 :
    after (.cycIdle 0 noPages) (asking [1] (withCtl State.reset (fun c => { c with highAddress := 0x0012#16 })))
      (fun t => (t.ctl.state, t.ctl.highAddress)) = some (.idle, 0xffff#16) := by decide
theorem test_cy2 : after (.cycS0 0 noPages) (inService .s0 1 0x00#8 0x45#8 0 0) (fun t => t.ctl) =
    some (inService .s0 1 0x00#8 0x45#8 0 0).ctl := by decide
theorem test_cy4 : after (.cycS1 0 noPages) (inService .s1 1 0x08#8 0x45#8 0x1000#16 0)
    (fun t => (t.ctl.state, t.ctl.dAck)) = some (.s2, false) := by decide
/-- CY-5: the skip of a loaded state. -/
def cachedS1 : State :=
  (withCtl (inService .s1 2 0x08#8 0x06#8 0x1005#16 0) (fun c => { c with highAddress := 0x0010#16 })).setBus
    { address := 0#32, data := 0x77#8 }
theorem test_cy5 :
    after (.cycS1 0 noPages) cachedS1
      (fun t => (t.ctl.state, t.ctl.dAck, t.bus.address, t.ram.byteAt 0x1005, t.ctl.highAddress)) =
      some (.s3, true, 0x1005#32, 0x77#8, 0x0010#16) := by decide
theorem test_cy8 :
    after (.cycS2 0 (onePage 0x30000#32)) (inService .s2 2 0x00#8 0x0a#8 0x8000#16 0)
      (fun t => (t.ctl.dAck, t.bus.address, t.ctl.highAddress, t.ram.decayTimes)) =
      some (true, 0x38000#32, 0x0080#16, []) := by decide
/-- CY-10: channel 1 under memory-to-memory writes `temporary`. -/
def partnerWrite : State :=
  (withCtl (inService .s2 1 0x01#8 0x85#8 0x3000#16 0) (fun c => { c with temporary := 0xaa#8 })).setBus
    { address := 0#32, data := 0x33#8 }
theorem test_cy10 : after (.cycS2 0 noPages) partnerWrite (fun t => (t.ram.byteAt 0x3000, t.bus.data)) =
    some (0xaa#8, 0xaa#8) := by decide
theorem test_cy12 : after (.cycS3 0 noPages) (inService .s3 1 0x00#8 0x45#8 0 0)
    (fun t => (t.ctl.state, t.ctl.dAck)) = some (.s4, true) := by decide
/-- CY-13: a compressed Demand read, granted again. -/
def demandRead (command : Byte) (deadlines : Deadlines) : State :=
  ((asking [2] (inService .s3 2 command 0x0a#8 0x8000#16 0x0004#16)).setRam
    { State.reset.ram with data := [(0x8000, 0x66#8)], decayTimes := deadlines }).setBus
    { address := 0x8000#32, data := 0#8 }
theorem test_cy13 :
    after (.cycS3 5 noPages) (demandRead 0x08#8 [(0, 6)])
      (fun t => (t.bus.data, t.ctl.dAck, (t.chan 2).currentAddress, (t.chan 2).currentCount, t.ctl.state,
        t.ctl.highAddress)) = some (0x66#8, false, 0x8001#16, 0x0003#16, .s0, 0xffff#16) := by decide
/-- CY-16: channel 0 latches its byte and channel 1 is granted by the special case. -/
theorem test_cy16 :
    after (.cycS4 5 noPages)
      ((((inService .s4 0 0x01#8 0x88#8 0x2000#16 0x0001#16).modChan 0 (Channel.setSoft true)).setRam
        { State.reset.ram with data := [(0x2000, 0xaa#8)], decayTimes := [(0, 6)] }).setBus
        { address := 0x2000#32, data := 0#8 })
      (fun t => (t.ctl.temporary, (t.chan 1).internalRequest, (t.chan 0).internalRequest, (t.chan 0).currentAddress,
        t.ctl.state, t.ctl.channel)) = some (0xaa#8, true, false, 0x2001#16, .s0, 1) := by decide
/-- CY-15: terminal count, and no grant after it. -/
theorem test_cy15 :
    after (.cycS4 0 noPages) (asking [1] (inService .s4 1 0x00#8 0x45#8 0x1002#16 0x0000#16))
      (fun t => (t.ctl.state, (t.chan 1).currentAddress, (t.chan 1).currentCount, (t.chan 1).terminalCount)) =
      some (.idle, 0x1003#16, 0xffff#16, true) := by decide
theorem test_cy23 : after (.cycYield 0 noPages) (asking [1] (inService .yield 1 0x00#8 0x45#8 0 0))
    (fun t => (t.ctl.state, t.ctl.channel)) = some (.s0, 1) := by decide
theorem test_cy25 : after (.cycYield 0 noPages) (asking [1] (inService .yield 1 0x04#8 0x45#8 0 0))
    (fun t => t.ctl.state) = some .idle := by decide

/-! ## The arbiter: AR vectors -/

/-- A state for the arbiter: Idle, with a command byte and the channel last serviced. -/
def arbiterAt (command : Byte) (k : ChanId) (cs : List ChanId) : State := asking cs (inService .idle k command 0 0 0)

theorem test_ar2 : arbitrate (arbiterAt 0x00#8 3 [1, 2, 3]) = some 1 := by decide
theorem test_ar5 : arbitrate (arbiterAt 0x04#8 3 [0, 1, 2, 3]) = none := by decide
theorem test_ar9 : arbitrate (arbiterAt 0x10#8 0 [0, 2]) = some 2 := by decide
theorem test_ar10 : arbitrate (arbiterAt 0x10#8 2 [0, 2]) = some 0 := by decide
theorem test_ar11 : arbitrate (arbiterAt 0x10#8 2 [2]) = some 2 := by decide
theorem test_ar16 : arbitrate (arbiterAt 0x11#8 0 [0, 2]) = some 1 := by decide
theorem test_ar13 : arbitrate ((arbiterAt 0x01#8 0 [0]).modChan 1 (fun x => { x with terminalCount := true })) = none := by
  decide
theorem test_ar14 :
    arbitrate ((arbiterAt 0x01#8 3 [0]).modChan 0 (fun x => { x with terminalCount := true })) = some 0 := by decide

/-! ## The RAM: program P3 and vectors RAM-T -/

theorem test_ram_t4 :
    ramDecayTicks { Config.reference with rowBits := 9, ticksPerSecond := 4772727 } = 38181 := by decide
theorem test_ram_configured :
    ramDecayTicks { Config.reference with ticksPerSecond := 1000, decayTime := some ⟨1, 250⟩ } = 4 := by decide
/-- A write of a decayed row stores the byte and moves the deadline to tick + 10. -/
theorem test_mwr_stores : after (.mwr 0 5#32 0x11#8) (smallRam [] [])
    (fun t => (t.ram.data, t.ram.decayTimes, t.bus)) = some ([(5, 0x11#8)], [(1, 10)], ⟨5#32, 0x11#8⟩) := by decide
/-- A write beyond the size refreshes the row and stores nothing (R254). -/
theorem test_mwr_beyond : after (.mwr 3 21#32 0x99#8) (smallRam [] [(1, 7)]) (fun t => (t.ram.data, t.ram.decayTimes)) =
    some ([], [(1, 13)]) := by decide
theorem test_mrd_live : after (.mrd 9 5#32) (smallRam [(5, 0x11#8)] [(1, 10)])
    (fun t => (t.returned, t.ram.decayTimes)) = some (.byte 0x11#8, [(1, 19)]) := by decide
theorem test_mrd_decayed : after (.mrd 10 5#32) (smallRam [(5, 0x11#8)] [(1, 10)])
    (fun t => (t.returned, t.ram.decayTimes)) = some (.byte 0xff#8, [(1, 10)]) := by decide
theorem test_decayed_before : after (.ramDecayed 9 5) (smallRam [] [(1, 10)]) State.returned = some (.flag false) := by
  decide
theorem test_decayed_at : after (.ramDecayed 10 21) (smallRam [] [(1, 10)]) State.returned = some (.flag true) := by
  decide

/-! ## Witnesses: the hypotheses of each statement that has some, met together -/

/-- The fields of `Inv` on a state with a byte and a deadline at the last cell and the last row of the small RAM. -/
theorem test_witness_invariant_idle : Inv (smallRam [(15, 0x11#8)] [(3, 10)]) :=
  ⟨⟨rfl, by decide, rfl, by decide⟩, rfl, fun _ => rfl, .inl rfl⟩

theorem test_witness_invariant_s3 :
    Inv (withCtl (inService .s3 2 0x00#8 0x0a#8 0xff00#16 0) (fun c => { c with highAddress := 0x00ff#16 })) :=
  ⟨⟨rfl, by decide, rfl, by decide⟩, rfl, fun h => by revert h; decide, .inr (by decide)⟩

theorem test_witness_invariant_s1 : Inv (inService .s1 2 0x08#8 0x0a#8 0 0) :=
  ⟨⟨rfl, by decide, rfl, by decide⟩, rfl, fun _ => rfl, .inl rfl⟩

/-- PowerOnMeetsTheInvariant: an initial RAM with a byte at its last address. -/
theorem test_witness_initial_ram :
    Memory.wf [(0xffff, 0x01#8)] = true ∧ ∀ e ∈ [((0xffff : Nat), 0x01#8)], e.1 < Config.reference.ramSize := by decide

/-- StepRunsTheDecodedOperation: no call, one call, and a word of the register port. -/
theorem test_witness_step_cases :
    State.reset.inputs = [] ∧ (State.reset.withFetchWord 16 0x1b45).inputs = [.write 0x45#8] ∧
      decodeTableWord 16 0x1fff = some (.wrMaskAll 0xff#8) := by decide

/-- StepKeepsTheInvariant, AGrantIsNeverWithdrawn, ControllerStateMovesAsListed: a `CYC` in S1 answers a next state, in a
state that meets `Inv` and is not Idle, and ends no service. -/
def cycleWaiting : State := { inService .s1 2 0x08#8 0x0a#8 0 0 with inputs := [.simulateCycle 0 noPages] }
theorem test_witness_step_answers :
    Inv cycleWaiting ∧ cycleWaiting.nextInstr = some (.cycS1 0 noPages) ∧
      step cycleWaiting = .next ((enter .s2 cycleWaiting.dequeue).returning .nothing) ∧
      cycleWaiting.ctl.state ≠ .idle ∧ endsService (.cycS1 0 noPages) = false :=
  ⟨⟨⟨rfl, by decide, rfl, by decide⟩, rfl, fun _ => rfl, .inl rfl⟩, rfl, rfl, by decide, rfl⟩

/-- TwoReadsReturnTheWholeRegister, TwoWritesLoadBaseAndCurrent. -/
theorem test_witness_toggle_reset : State.reset.ctl.lastByte = false := by decide

/-- UnmappedReadsChangeNothing: the first and the last of them. -/
theorem test_witness_unmapped : Instr.rdUnmapped9 ∈ unmappedReads ∧ Instr.rdUnmapped15 ∈ unmappedReads := by decide

/-- MasterClearClearsThenArbitrates: no internal request; the lowest being channel 0; the lowest being channel 3. -/
theorem test_witness_master_clear :
    (∀ c : ChanId, (State.reset.chan c).internalRequest = false) ∧
      ((withChan 0 (Channel.setInternal true)).chan 0).internalRequest = true ∧
      ((withChan 3 (Channel.setInternal true)).chan 3).internalRequest = true ∧
      ∀ d : ChanId, d < 3 → ((withChan 3 (Channel.setInternal true)).chan d).internalRequest = false := by decide

/-- AtMostOneChannelIsAcknowledged: both queries answer true on the channel in service, in a state that meets `Inv`. -/
theorem test_witness_acknowledged :
    (∃ t, exec (.dack 2) (inService .s3 2 0 0 0 0) = .next t ∧ t.returned = .flag true) ∧
      Inv (inService .s3 2 0 0 0 0) :=
  ⟨⟨_, rfl, by decide⟩, ⟨rfl, by decide, rfl, by decide⟩, rfl, fun _ => rfl, .inl rfl⟩

/-- OnlyTheSpecsTwoRefusals: an operation of the domain at the last channel. -/
theorem test_witness_completes :
    (Instr.dreq 3).wellFormed = true ∧ ∀ n, Instr.dreq 3 ≠ .ramMaintain n := ⟨rfl, fun _ h => by cases h⟩

/-- MaintainAndChannelsOutOfRangeAreRefused: the first number that is no channel. -/
theorem test_witness_out_of_range : 4 ≤ 4 := by decide

/-- CycleInS1AdvancesOrSkips: timing not compressed with the byte cached; compressed with another byte; compressed with the
byte cached. -/
theorem test_witness_s1 :
    (withCtl cachedS1 (fun c => { c with command := 0x00#8 })).ctl.command.getLsbD 3 = false ∧
      cachedS1.ctl.command.getLsbD 3 = true ∧
      (cachedS1.chan cachedS1.ctl.channel).currentAddress.toNat / 256 = cachedS1.ctl.highAddress.toNat ∧
      ((inService .s1 1 0x08#8 0x45#8 0xffff#16 0).chan 1).currentAddress.toNat / 256 ≠ 0xffff := by decide

/-- CycleInS2WithoutAStore: Cascade with type Write; Verify, Read and Illegal in Demand mode. -/
theorem test_witness_s2_without_store :
    ((inService .s2 3 0 0xc7#8 0 0).chan 3).transferMode = .cascade ∧
      ((inService .s2 3 0 0x00#8 0 0).chan 3).transferType ≠ .write ∧
      ((inService .s2 3 0 0x08#8 0 0).chan 3).transferType ≠ .write ∧
      ((inService .s2 3 0 0x0c#8 0 0).chan 3).transferType ≠ .write := by decide

/-- CycleInS2StoresAByte: a Write in Block mode at the last cell of the small RAM (in range), and one cell beyond it; under
memory-to-memory on channel 1, and otherwise. -/
def writeAt (k : ChanId) (address : Word16) : State :=
  (inService .s2 k 0x01#8 0x87#8 address 0).setRam (smallRam [] []).ram
theorem test_witness_s2_store :
    ((writeAt 1 15#16).chan 1).transferMode ≠ .cascade ∧ ((writeAt 1 15#16).chan 1).transferType = .write ∧
      (driveAddress ((writeAt 1 15#16).chan 1).currentAddress (noPages.get 1)).toNat < (writeAt 1 15#16).ram.size ∧
      (writeAt 2 16#16).ram.size ≤ (driveAddress ((writeAt 2 16#16).chan 2).currentAddress (noPages.get 2)).toNat := by
  decide

/-- CycleInS3AdvancesOrMerges: both timings. -/
theorem test_witness_s3 :
    compressed (demandRead 0x00#8 []).ctl.command = false ∧ compressed (demandRead 0x08#8 []).ctl.command = true := by
  decide

/-- CycleInS4FetchesAByte: no Read; Cascade; a Read with a row alive to the next tick, and decayed at it. -/
theorem test_witness_s4_fetch :
    ((inService .s4 2 0 0x04#8 0 0).chan 2).transferType ≠ .read ∧
      ((inService .s4 2 0 0xc8#8 0 0).chan 2).transferMode = .cascade ∧
      ((demandRead 0 [(0, 6)]).chan 2).transferType = .read ∧ ((demandRead 0 [(0, 6)]).chan 2).transferMode ≠ .cascade ∧
      5 < (demandRead 0 [(0, 6)]).ram.deadlineAt (0x8000 % 2 ^ 8) ∧
      ¬ 6 < (demandRead 0 [(0, 6)]).ram.deadlineAt (0x8000 % 2 ^ 8) := by decide

/-- CycleInS4Continues: a Single transfer that goes on (CY-14), and one that reaches terminal count (CY-15). -/
theorem test_witness_s4_continues :
    after (.cycS4 0 noPages) (inService .s4 1 0 0x45#8 0x1000#16 0x0001#16) (fun t => (t.chan 1).terminalCount) =
        some false ∧
      after (.cycS4 0 noPages) (inService .s4 1 0 0x45#8 0x1000#16 0x0000#16) (fun t => (t.chan 1).terminalCount) =
        some true ∧
      ((inService .s4 1 0 0x45#8 0x1000#16 0).chan 1).transferMode = .single := by decide

/-- TransferTakesFourCycles and CompressedTransferTakesThreeCycles: a channel at S1 with its calls waiting, and one of another
kind behind them. -/
def fourCycles (command : Byte) : State :=
  { inService .s1 2 command 0x06#8 0x00ff#16 1 with
    inputs := [.simulateCycle 0 noPages, .simulateCycle 1 noPages, .simulateCycle 2 noPages, .simulateCycle 3 noPages,
      .dmaRequested] }
def threeCycles (command : Byte) : State := { fourCycles command with inputs := (fourCycles command).inputs.tail }
theorem test_witness_four_cycles :
    (fourCycles 0x00#8).ctl.state = .s1 ∧ (fourCycles 0x00#8).ctl.command.getLsbD 3 = false ∧
      (fourCycles 0x00#8).inputs =
        .simulateCycle 0 noPages :: .simulateCycle 1 noPages :: .simulateCycle 2 noPages :: .simulateCycle 3 noPages ::
          [.dmaRequested] := by decide
theorem test_witness_three_cycles :
    (threeCycles 0x08#8).ctl.state = .s1 ∧ (threeCycles 0x08#8).ctl.command.getLsbD 3 = true ∧
      (threeCycles 0x08#8).inputs =
        .simulateCycle 1 noPages :: .simulateCycle 2 noPages :: .simulateCycle 3 noPages :: [.dmaRequested] ∧
      Inv (threeCycles 0x08#8) :=
  ⟨rfl, rfl, rfl, ⟨rfl, by decide, rfl, by decide⟩, rfl, fun _ => rfl, .inl rfl⟩

/-- ArbiterFollowsItsProcedure: disabled; not Idle; the special case (AR-12); a scan that grants (AR-1) and one that does
not (AR-4). -/
theorem test_witness_arbiter :
    disabled (arbiterAt 0x04#8 3 [0]).ctl.command = true ∧ (inService .yield 2 0 0 0 0).ctl.state ≠ .idle ∧
      (arbiterAt 0x01#8 0 [0]).memToMemSpecial = true ∧ (arbiterAt 0x00#8 3 [1]).qualifies 1 = true ∧
      arbitrate (arbiterAt 0x00#8 1 []) = none := by decide

/-- RotatingPriorityAlternates: the channel last serviced and one other request. -/
theorem test_witness_rotating :
    (arbiterAt 0x10#8 2 [0, 2]).ctl.command.getLsbD 2 = false ∧ (arbiterAt 0x10#8 2 [0, 2]).ctl.command.getLsbD 4 = true ∧
      (arbiterAt 0x10#8 2 [0, 2]).ctl.command.getLsbD 0 = false ∧ (arbiterAt 0x10#8 2 [0, 2]).ctl.state = .idle ∧
      0 ≠ (arbiterAt 0x10#8 2 [0, 2]).ctl.channel ∧ (arbiterAt 0x10#8 2 [0, 2]).qualifies 0 = true ∧
      ∀ e : ChanId, (arbiterAt 0x10#8 2 [0, 2]).qualifies e = true →
        e = (arbiterAt 0x10#8 2 [0, 2]).ctl.channel ∨ e = 0 := by decide

/-- ArbiterNeverGrantsAMaskedHardRequest: a grant; and a grant of a masked channel without a request of its own. -/
theorem test_witness_masked_grant :
    arbitrate (arbiterAt 0x01#8 0 [0]) = some 1 ∧ ((arbiterAt 0x01#8 0 [0]).chan 1).mask = true ∧
      ((arbiterAt 0x01#8 0 [0]).chan 1).softRequest = false ∧
      ((arbiterAt 0x01#8 0 [0]).chan 1).internalRequest = false := by decide

/-- HostReadGoesThroughTheBus, HostWriteGoesThroughTheBus, RamReadAndWriteFollowTheirRules: the tick before the deadline and
the deadline; the last address and the size. -/
theorem test_witness_ram_edges :
    9 < (smallRam [] [(3, 10)]).ram.deadlineAt (15 % 2 ^ 2) ∧ 10 ≥ (smallRam [] [(3, 10)]).ram.deadlineAt (15 % 2 ^ 2) ∧
      (15#32).toNat < (smallRam [] [(3, 10)]).ram.size ∧ 16 ≥ (smallRam [] [(3, 10)]).ram.size := by decide

/-- RamRoundTripAndRefreshByReading: a byte written at tick 5, read at its last live tick and at its deadline; a live row. -/
theorem test_witness_round_trip :
    (15#32).toNat < (smallRam [] []).ram.size ∧ 14 < 5 + (smallRam [] []).ram.decayTicks ∧
      5 + (smallRam [] []).ram.decayTicks ≤ 15 ∧ 9 < (smallRam [] [(3, 10)]).ram.deadlineAt ((15#32).toNat % 2 ^ 2) := by
  decide

/-- AWriteRevivesTheWholeRow: two addresses of row 1, the one written out of range. -/
theorem test_witness_revival :
    5#32 ≠ 21#32 ∧ (5#32).toNat % 2 ^ 2 = (21#32).toNat % 2 ^ 2 ∧ (5#32).toNat < (smallRam [] []).ram.size ∧
      12 < 3 + (smallRam [] []).ram.decayTicks := by decide

/-- BytesChangeOnlyWhereAWriteStores: a step that stores, an address beside the one stored to, and one beyond the size. -/
def writeWaiting : State := { smallRam [] [] with inputs := [.busWrite 0 5#32 0x11#8] }
theorem test_witness_not_stored :
    writeWaiting.nextInstr = some (.mwr 0 5#32 0x11#8) ∧ (∃ t, step writeWaiting = .next t) ∧
      storeAddress (.mwr 0 5#32 0x11#8) writeWaiting = some 5 ∧ writeWaiting.ram.size ≤ 16 :=
  ⟨rfl, ⟨_, rfl⟩, rfl, by decide⟩

/-- UpdateFollowsItsProcedure and TerminalCountAfterCountPlusOneUpdates: counts 1 and 0, with and without
auto-initialization, the latch clear. -/
theorem test_witness_update :
    ((inService .s4 1 0 0x45#8 0 1).chan 1).currentCount ≠ 0x0000#16 ∧
      ((inService .s4 1 0 0x45#8 0 0).chan 1).currentCount = 0x0000#16 ∧
      ((inService .s4 1 0 0x55#8 0 0).chan 1).autoInitialization = true ∧
      ((inService .s4 1 0 0x45#8 0 0).chan 1).autoInitialization = false ∧
      ((inService .s4 1 0 0x45#8 0 0).chan 1).terminalCount = false ∧
      ((inService .s4 1 0 0x55#8 0 0).chan 1).terminalCount = false := by decide

/-- The last cycle of channel 1 (CY-15). -/
def lastCycle : State := { inService .s4 1 0 0x45#8 0 0 with inputs := [.simulateCycle 0 noPages] }

/-- EachFieldHasItsWritersOnly: operations that write none of the fields of a channel. -/
theorem test_witness_no_writer :
    writesRegistersOf .rdStatus 3 = false ∧ countsTransfer .rdStatus lastCycle = false ∧ writesModeOf (.wrMode 0x45#8) 0 = false ∧ writesHardOf (.dreq 1) 0 = false ∧
      writesSoftOf (.wrRequest 0x04#8) 1 = false ∧ writesMask (.wrMode 0x45#8) = false := by decide

/-- EachFieldHasItsWritersOnly: the S4 action leaves the registers of a channel not in service; `CYC` in S3 runs it under
compressed timing only. -/
theorem test_witness_other_channel :
    (countsTransfer (.cycS4 0 noPages) lastCycle = true ∧ writesRegistersOf (.cycS4 0 noPages) 2 = false ∧
        2 ≠ lastCycle.ctl.channel) ∧
      countsTransfer (.cycS3 0 noPages) (demandRead 0x00#8 []) = false ∧
      countsTransfer (.cycS3 0 noPages) (demandRead 0x08#8 []) = true := by decide

/-- EachFieldHasItsWritersOnly: a step that clears a latch (RG-7), and one that sets a latch (CY-15). -/
def statusRead : State := (withChan 1 (fun x => { x with terminalCount := true })).withFetchWord 16 0x0800
theorem test_witness_latch_cleared :
    statusRead.nextInstr = some .rdStatus ∧ (statusRead.chan 1).terminalCount = true ∧
      ∃ t, step statusRead = .next t ∧ (t.chan 1).terminalCount = false := ⟨rfl, rfl, _, rfl, by decide⟩
theorem test_witness_latch_set :
    lastCycle.nextInstr = some (.cycS4 0 noPages) ∧ (lastCycle.chan 1).terminalCount = false ∧
      ∃ t, step lastCycle = .next t ∧ (t.chan 1).terminalCount = true := ⟨rfl, rfl, _, rfl, by decide⟩

end Sys2Proof.Tests
end

