-- ==== Sys2Proof/Proofs/RegisterRows.lean ====
section
/-! PROOFS. A register access is accepted by the row of its direction and latched address alone (R118).  No row of the
opcode table compares the data byte of a `REG` word, so the 32 words whose data byte is 0 speak for all of them. -/

namespace Sys2Proof.Proofs

open Sys2Proof.Laws

/-! The row of a direction and a latched address. -/

theorem length_readRows : readRows.length = 16 := rfl

theorem length_writeRows : writeRows.length = 16 := rfl

/-- The rows of one direction, in the order of the latched address. -/
def rowsOf (dir : Bool) : List TableRow := if dir then writeRows else readRows

theorem length_rowsOf (dir : Bool) : (rowsOf dir).length = 16 := by
  cases dir
  · exact length_readRows
  · exact length_writeRows

/-- The row of a direction and a latched address. -/
def rowAt (dir : Bool) (addr : BitVec 4) : TableRow :=
  (rowsOf dir)[addr.toNat]'(length_rowsOf dir ▸ addr.isLt)

theorem rowAt_mem_rowsOf (dir : Bool) (addr : BitVec 4) : rowAt dir addr ∈ rowsOf dir := List.getElem_mem _

/-! No row compares the data byte. -/

/-- The byte above the data byte of a `REG` word: `dir` over `addr` (R101). -/
def regHighByte (dir : Bool) (addr : BitVec 4) : Byte := 0#3 ++ (BitVec.ofBool dir ++ addr)

theorem regWord_eq_append (dir : Bool) (addr : BitVec 4) (data : Byte) :
    regWord dir addr data = regHighByte dir addr ++ data := by
  have inner : BitVec.ofBool dir ++ (addr ++ data) = (BitVec.ofBool dir ++ addr) ++ data := by
    rw [BitVec.append_assoc]; rfl
  have outer : 0#3 ++ ((BitVec.ofBool dir ++ addr) ++ data) = (0#3 ++ (BitVec.ofBool dir ++ addr)) ++ data := by
    rw [BitVec.append_assoc (x₁ := 0#3)]; rfl
  rw [regWord, inner, outer, regHighByte]

theorem regRow_accepts_isSome (mnemonic : String) (pattern : Nat) (build : Byte → Instr) (high data : Byte) :
    ((regRow mnemonic pattern build).accepts (.reg (high ++ data))).isSome =
      decide ((high.toNat &&& 0x1f) * 256 = pattern ∧ high.toNat < 0x20) := by
  simp only [regRow, word_and_mask, word_lt]
  split <;> simp [*]

theorem eq_regRow_of_mem {r : TableRow} (h : r ∈ readRows ++ writeRows) :
    ∃ mnemonic pattern build, r = regRow mnemonic pattern build := by
  revert r
  simp [readRows, writeRows]

theorem callRows_accept_no_word (w : BitVec 16) {r : TableRow} (h : r ∈ callRows) : r.accepts (.reg w) = none := by
  revert r
  simp [callRows, callRow, clkRow]

theorem accepts_isSome_data_indep {r : TableRow} (h : r ∈ opcodeTable) (dir : Bool) (addr : BitVec 4)
    (data data' : Byte) :
    (r.accepts (.reg (regWord dir addr data))).isSome = (r.accepts (.reg (regWord dir addr data'))).isSome := by
  rw [opcodeTable, ← List.append_assoc, List.mem_append] at h
  obtain hreg | hcall := h
  · obtain ⟨mnemonic, pattern, build, rfl⟩ := eq_regRow_of_mem hreg
    simp only [regWord_eq_append, regRow_accepts_isSome]
  · simp only [callRows_accept_no_word _ hcall]

/-! The row that accepts a register access. -/

/-- The rows of the opcode table that accept the `REG` word of an access. -/
def acceptingRows (dir : Bool) (addr : BitVec 4) (data : Byte) : List TableRow :=
  opcodeTable.filter (fun r => (r.accepts (.reg (regWord dir addr data))).isSome)

theorem acceptingRows_data_indep (dir : Bool) (addr : BitVec 4) (data data' : Byte) :
    acceptingRows dir addr data = acceptingRows dir addr data' :=
  List.filter_congr fun _ h => accepts_isSome_data_indep h dir addr data data'

theorem acceptingRows_zero_data : ∀ (dir : Bool) (addr : BitVec 4),
    (acceptingRows dir addr 0#8).map (fun r => r.mnemonic) = [(rowAt dir addr).mnemonic] := by
  decide

theorem acceptingRows_mnemonics (dir : Bool) (addr : BitVec 4) (data : Byte) :
    (acceptingRows dir addr data).map (fun r => r.mnemonic) = [(rowAt dir addr).mnemonic] := by
  rw [acceptingRows_data_indep dir addr data 0#8, acceptingRows_zero_data]

/-- Settles O3: the row is the one at the latched address among the rows of the direction. -/
theorem registerRowsCoverWithoutOverlap : Obligations.RegisterRowsCoverWithoutOverlap := by
  refine ⟨length_readRows, length_writeRows, fun dir addr => ⟨(rowAt dir addr).mnemonic, ?_, fun data => ⟨?_, ?_⟩⟩⟩
  · exact List.mem_map_of_mem (rowAt_mem_rowsOf dir addr)
  · exact acceptingRows_mnemonics dir addr data
  · exact ⟨regInstr dir addr data, decodeRegWord_regWord dir addr data⟩

end Sys2Proof.Proofs
end

section
/-! PROOFS. What one update does to a channel (R142): one equation for each of its three cases, the address one step on as
a number, and the fields no update touches. -/

namespace Sys2Proof.Proofs

open Sys2Proof.Machine

theorem underflow_iff (x : Channel) : x.underflow = true ↔ x.currentCount = 0x0000#16 := beq_iff_eq

/-! The three cases of an update. -/

/-- No underflow: both current registers step and the latch is kept. -/
theorem update_of_count_ne_zero {x : Channel} (hold : Bool) (h : x.currentCount ≠ 0x0000#16) :
    x.update hold =
      { x with currentAddress := x.steppedAddress hold, currentCount := x.currentCount - 1#16 } := by
  rw [Channel.update, if_neg (mt (underflow_iff x).mp h)]

/-- Underflow under auto-initialization: both current registers are reloaded, whether the address is held or not. -/
theorem update_of_reload {x : Channel} (hold : Bool) (h : x.currentCount = 0x0000#16)
    (hauto : x.autoInitialization = true) :
    x.update hold = { x with currentAddress := x.baseAddress, currentCount := x.baseCount } := by
  rw [Channel.update, if_pos ((underflow_iff x).mpr h), if_pos hauto]

/-- Underflow without auto-initialization: the count wraps and terminal count is latched. -/
theorem update_of_terminalCount {x : Channel} (hold : Bool) (h : x.currentCount = 0x0000#16)
    (hauto : x.autoInitialization = false) :
    x.update hold =
      { x with currentAddress := x.steppedAddress hold, currentCount := 0xffff#16, terminalCount := true } := by
  rw [Channel.update, if_pos ((underflow_iff x).mpr h), if_neg (Bool.eq_false_iff.mp hauto), h]
  rfl

/-! The registers as numbers, and the frame. -/

theorem steppedAddress_toNat (x : Channel) (hold : Bool) :
    (x.steppedAddress hold).toNat = steppedValue x hold := by
  unfold Channel.steppedAddress steppedValue
  split
  · rfl
  · split
    · rw [BitVec.toNat_sub]
      simp [Nat.add_comm]
    · rw [BitVec.toNat_add]
      rfl

theorem toNat_sub_one_of_ne_zero {n : Word16} (h : n ≠ 0x0000#16) : (n - 1#16).toNat = n.toNat - 1 := by
  bv_omega

/-- An update touches the current registers and the latch only. -/
theorem update_frame (x : Channel) (hold : Bool) :
    x.update hold =
      { x with
        currentAddress := (x.update hold).currentAddress
        currentCount := (x.update hold).currentCount
        terminalCount := (x.update hold).terminalCount } := by
  unfold Channel.update
  split
  · split <;> rfl
  · rfl

/-- Settles O57: the equation of each case, with the stepped address and the decremented count read as numbers. -/
theorem updateFollowsItsProcedure : Obligations.UpdateFollowsItsProcedure := by
  intro x hold
  refine ⟨update_frame x hold, fun hcount => ?_, fun hcount hauto => ?_, fun hcount hauto => ?_⟩
  · rw [update_of_count_ne_zero hold hcount]
    exact ⟨steppedAddress_toNat x hold, toNat_sub_one_of_ne_zero hcount, rfl⟩
  · rw [update_of_reload hold hcount hauto]
    exact ⟨rfl, rfl, rfl⟩
  · rw [update_of_terminalCount hold hcount hauto]
    exact ⟨steppedAddress_toNat x hold, rfl, rfl⟩

end Sys2Proof.Proofs
end

