-- ==== Sys2Proof/Proofs/CycleArms.lean ====
section
/-! PROOFS. The arms of `CYC` that only move the controller: Idle (R161), S3 without compressed timing (R165) and Yield
(R167).  Each is shown to be one replacement of the controller; the frame of such a replacement is proved once. -/

namespace Sys2Proof.Proofs

open Sys2Proof.Machine

/-! The frame of an operation that replaces the controller and answers. -/

theorem sameChannels_setCtl_returning (s : State) (x : Controller) (r : Returned) :
    SameChannels s ((s.setCtl x).returning r) :=
  fun _ => rfl

theorem sameOutside_setCtl_returning (s : State) (x : Controller) (r : Returned) :
    SameOutside s ((s.setCtl x).returning r) := by
  have hconfig : SameConfiguration s ((s.setCtl x).returning r) := ⟨rfl, rfl, rfl, rfl, rfl⟩
  exact ⟨⟨fun _ => rfl, fun _ => rfl, hconfig⟩, rfl, rfl, rfl⟩

/-! Entering a state replaces the controller (R168). -/

theorem enter_of_dropsCache {p : Phase} (s : State) (h : Phase.dropsCache p = true) :
    enter p s = s.setCtl { s.ctl with state := p, highAddress := sentinel } := by
  rw [enter, if_pos h]

theorem enter_of_keepsCache {p : Phase} (s : State) (h : Phase.dropsCache p = false) :
    enter p s = s.setCtl { s.ctl with state := p } := by
  rw [enter, if_neg (Bool.eq_false_iff.mp h)]

theorem setCtl_enter (p : Phase) (s : State) (x : Controller) : (enter p s).setCtl x = s.setCtl x := rfl

/-! The arms. -/

section Arms

variable (now : Nat) (pages : Pages) (s : State)

/-- The state of the sequencer completes a `CYC` (R160). -/
theorem select_simulateCycle (latch : BitVec 4) (p : Phase) :
    (Invocation.simulateCycle now pages).select latch p = cycInstr p now pages :=
  rfl

theorem exec_cycIdle :
    exec (.cycIdle now pages) s = .next ((s.setCtl { s.ctl with highAddress := sentinel }).returning .nothing) :=
  rfl

theorem exec_cycS3_of_uncompressed {s : State} (h : compressed s.ctl.command = false) :
    exec (.cycS3 now pages) s = .next ((s.setCtl { s.ctl with state := .s4 }).returning .nothing) := by
  have harm : exec (.cycS3 now pages) s = execCycS3 now pages s := rfl
  rw [harm, execCycS3, if_neg (Bool.eq_false_iff.mp h), enter_of_keepsCache s rfl]

theorem exec_cycS3_of_compressed {s : State} (h : compressed s.ctl.command = true) :
    exec (.cycS3 now pages) s = exec (.cycS4 now pages) s := by
  have hS3 : exec (.cycS3 now pages) s = execCycS3 now pages s := rfl
  have hS4 : exec (.cycS4 now pages) s = execCycS4 now pages s := rfl
  rw [hS3, hS4, execCycS3, execCycS4, if_pos h]

theorem exec_cycYield :
    exec (.cycYield now pages) s =
      .next ((s.setCtl (arbitratedCtl (enter .idle s))).returning .nothing) := by
  have harm : exec (.cycYield now pages) s = execCycYield now pages s := rfl
  rw [harm, execCycYield, checkForDMA_eq, setCtl_enter]

end Arms

/-- Settles O32: the arm replaces the controller by itself with the sentinel in the cache. -/
theorem cycleInIdleOnlyDropsTheCache : Obligations.CycleInIdleOnlyDropsTheCache := by
  intro now pages s
  exact ⟨_, fun latch => select_simulateCycle now pages latch .idle, exec_cycIdle now pages s, rfl,
    sameChannels_setCtl_returning _ _ _, sameOutside_setCtl_returning _ _ _, rfl⟩

/-- Settles O37: the two cases are those of the compressed-timing bit. -/
theorem cycleInS3AdvancesOrMerges : Obligations.CycleInS3AdvancesOrMerges := by
  intro now pages s
  refine ⟨fun latch => select_simulateCycle now pages latch .s3, fun huncompressed => ?_, fun hcompressed => ?_⟩
  · exact ⟨_, exec_cycS3_of_uncompressed now pages huncompressed, rfl, sameChannels_setCtl_returning _ _ _,
      sameOutside_setCtl_returning _ _ _, rfl⟩
  · exact exec_cycS3_of_compressed now pages hcompressed

/-- Settles O41: the state that the arbiter reads is `s` with Idle entered. -/
theorem cycleInYieldArbitratesFromIdle : Obligations.CycleInYieldArbitratesFromIdle := by
  intro now pages s
  have hidle : (enter .idle s).ctl = { s.ctl with state := .idle, highAddress := sentinel } := by
    rw [enter_of_dropsCache s rfl, State.setCtl_ctl]
  exact ⟨enter .idle s, _, fun latch => select_simulateCycle now pages latch .yield, exec_cycYield now pages s,
    fun c => enter_chan .idle s c, hidle, sameChannels_setCtl_returning (enter .idle s) _ _,
    rfl, sameOutside_setCtl_returning s _ _, rfl⟩

end Sys2Proof.Proofs
end

