-- ==== Sys2Proof/Proofs/Arbiter.lean ====
section
/-! PROOFS. The arbiter (R180): one equation for each of its outcomes, the conditions of the special case (R183) and of
qualification (R181) as propositions, and what a grant writes (R275). -/

namespace Sys2Proof.Proofs

open Sys2Proof.Machine

section Arbiter

variable {s : State}

/-! What the arbiter selects, in the order of its tests. -/

theorem arbitrate_of_disabled (h : disabled s.ctl.command = true) : arbitrate s = none := by
  rw [arbitrate, if_pos h]

theorem arbitrate_of_not_idle (h : s.ctl.state ≠ .idle) : arbitrate s = none := by
  rw [arbitrate, if_pos (bne_iff_ne.mpr h), ite_self]

/-- Enabled and Idle: the special case comes before the scan. -/
theorem arbitrate_of_enabled_idle (henabled : disabled s.ctl.command = false) (hidle : s.ctl.state = .idle) :
    arbitrate s = if s.memToMemSpecial = true then some 1 else (scanOrder s).find? s.qualifies := by
  simp [arbitrate, henabled, hidle]

theorem memToMemSpecial_iff :
    s.memToMemSpecial = true ↔
      s.ctl.channel = 0 ∧ memToMem s.ctl.command = true ∧ (s.chan 0).request = true ∧
        (s.chan 1).terminalCount = false := by
  simp [State.memToMemSpecial, and_assoc]

/-- Under memory-to-memory channel 0 looks at the latch of channel 1, any other channel at its own. -/
theorem qualifies_eq (s : State) (c : ChanId) :
    s.qualifies c =
      if c = 0 ∧ memToMem s.ctl.command = true then (s.chan 0).request && !(s.chan 1).terminalCount
      else (s.chan c).request && !(s.chan c).terminalCount := by
  simp [State.qualifies]

/-! What the selection does to the state. -/

theorem grant_eq (c : ChanId) (s : State) : grant c s = s.setCtl (grantedCtl s c) := rfl

theorem checkForDMA_of_none (h : arbitrate s = none) : checkForDMA s = s := by
  rw [checkForDMA, h]

theorem checkForDMA_of_some {c : ChanId} (h : arbitrate s = some c) :
    checkForDMA s = s.setCtl (grantedCtl s c) := by
  rw [checkForDMA, h, ← grant_eq]

end Arbiter

/-- Settles O46: disabled and not Idle select nothing; otherwise the case is that of the special condition, and without it
that of the scan. -/
theorem arbiterFollowsItsProcedure : Obligations.ArbiterFollowsItsProcedure := by
  intro s req m2m q
  have hq : q = s.qualifies := funext fun c => (qualifies_eq s c).symm
  refine ⟨fun hdisabled => ?_, fun hbusy => ?_, fun henabled hidle => ?_⟩
  · exact checkForDMA_of_none (arbitrate_of_disabled hdisabled)
  · exact checkForDMA_of_none (arbitrate_of_not_idle hbusy)
  · have harb := arbitrate_of_enabled_idle henabled hidle
    split
    next hspecial =>
      rw [if_pos (memToMemSpecial_iff.mpr hspecial)] at harb
      exact checkForDMA_of_some harb
    next hspecial =>
      rw [if_neg (mt memToMemSpecial_iff.mp hspecial), ← hq] at harb
      split
      next c hscan => exact checkForDMA_of_some (harb.trans hscan)
      next hscan => exact checkForDMA_of_none (harb.trans hscan)

end Sys2Proof.Proofs
end

section
/-! PROOFS. SETA (R190): one replacement of the controller, which puts the operand modulo 16 into the address latch. -/

namespace Sys2Proof.Proofs

open Sys2Proof.Machine

theorem exec_seta (a : Nat) (s : State) :
    exec (.seta a) s = .next ((s.setCtl { s.ctl with address := BitVec.ofNat 4 a }).returning .nothing) :=
  rfl

/-- Settles O9: the arm replaces the controller alone, and a 4-bit word made from the operand holds it modulo 16. -/
theorem setaLatchesTheLowFourBits : Obligations.SetaLatchesTheLowFourBits := by
  intro a s
  have hlatch : (BitVec.ofNat 4 a).toNat = a % 16 := BitVec.toNat_ofNat a 4
  exact ⟨_, exec_seta a s, rfl, hlatch, sameChannels_setCtl_returning _ _ _, sameOutside_setCtl_returning _ _ _, rfl⟩

end Sys2Proof.Proofs
end

section
/-! PROOFS. DONE (R243): one change of the named channel, the fall of its hard request, and then an arbitration of the
state so changed. -/

namespace Sys2Proof.Proofs

open Sys2Proof.Machine

/-- A number below 4 names its channel (R9). -/
theorem onChannel_val (c : ChanId) (f : ChanId → State) : onChannel c.val f = .next (f c) := dif_pos c.isLt

/-! The frame of an operation that changes one channel, arbitrates and answers. -/

theorem chan_modChan_of_ne (s : State) {c d : ChanId} (f : Channel → Channel) (h : d ≠ c) :
    (s.modChan c f).chan d = s.chan d := by
  rw [State.chan_modChan, if_neg h]

theorem sameChannels_checkForDMA_returning (s : State) (r : Returned) :
    SameChannels s ((checkForDMA s).returning r) :=
  fun c => checkForDMA_chan s c

theorem sameOutside_checkForDMA_modChan_returning (s : State) (c : ChanId) (f : Channel → Channel) (r : Returned) :
    SameOutside s ((checkForDMA (s.modChan c f)).returning r) := by
  rw [checkForDMA_eq]
  exact sameOutside_setCtl_returning (s.modChan c f) _ r

theorem exec_dmaDone (c : ChanId) (s : State) :
    exec (.dmaDone c.val) s = .next ((checkForDMA (s.modChan c (Channel.setHard false))).returning .nothing) := by
  have harm : exec (.dmaDone c.val) s = execDone c.val s := rfl
  rw [harm, execDone, onChannel_val]

/-- Settles O25: the state that the arbiter reads is `s` with the hard request of the channel false. -/
theorem doneClearsHardRequestThenArbitrates : Obligations.DoneClearsHardRequestThenArbitrates := by
  intro c s
  have hclears : (s.modChan c (Channel.setHard false)).chan c = { s.chan c with hardRequest := false } :=
    State.chan_modChan_same s c _
  exact ⟨s.modChan c (Channel.setHard false), _, exec_dmaDone c s, hclears, fun _ hd => chan_modChan_of_ne s _ hd, rfl,
    sameChannels_checkForDMA_returning _ _, checkForDMA_ctl _, sameOutside_checkForDMA_modChan_returning s c _ _, rfl⟩

end Sys2Proof.Proofs
end

section
/-! PROOFS. The RAM by itself (R250 to R254): a read before the deadline and at or past it, a write within the size and
beyond it, and DECAYED?, which replaces only the answer. -/

namespace Sys2Proof.Proofs

open Sys2Proof.Machine

/-! A row before its deadline, and at or past it (R252). -/

theorem decayed_eq_decide (r : Ram) (tick a : Nat) :
    r.decayed tick a = decide (tick ≥ r.deadlineAt (a % 2 ^ r.rowBits)) := by
  rw [Ram.decayed, Ram.rowOf_eq_mod]

section Read

variable {r : Ram} {tick a : Nat}

theorem decayed_of_deadline_le (h : tick ≥ r.deadlineAt (a % 2 ^ r.rowBits)) : r.decayed tick a = true := by
  rw [decayed_eq_decide, decide_eq_true h]

theorem not_decayed_of_lt_deadline (h : tick < r.deadlineAt (a % 2 ^ r.rowBits)) : ¬ r.decayed tick a = true := by
  rw [decayed_eq_decide, decide_eq_true_iff]
  exact Nat.not_le.mpr h

/-! The two cases of a read (R253). -/

theorem readValue_of_decayed (h : r.decayed tick a = true) : r.readValue tick a = r.decayValue := if_pos h

theorem afterRead_of_decayed (h : r.decayed tick a = true) : r.afterRead tick a = r := if_pos h

theorem readValue_of_not_decayed (h : ¬ r.decayed tick a = true) :
    r.readValue tick a = if a ≥ r.size then r.decayValue else r.byteAt a := by
  rw [Ram.readValue, if_neg h, Ram.inRange]
  by_cases hrange : a < r.size
  · rw [if_pos (decide_eq_true hrange), if_neg (Nat.not_le.mpr hrange)]
  · rw [if_neg (mt of_decide_eq_true hrange), if_pos (Nat.not_lt.mp hrange)]

theorem afterRead_of_not_decayed (h : ¬ r.decayed tick a = true) : r.afterRead tick a = r.refresh tick a := if_neg h

end Read

/-! What a write beyond the size does (R254 a). -/

theorem afterWrite_of_size_le {r : Ram} {a : Nat} (tick : Nat) (b : Byte) (h : a ≥ r.size) :
    r.afterWrite tick a b = r.refresh tick a := by
  have hrange : ¬ r.inRange a = true := mt of_decide_eq_true (Nat.not_lt.mpr h)
  exact if_neg hrange

/-- Settles O53: a read by the row's deadline, a write by the size; the deadlines of both by those of a refresh. -/
theorem ramReadAndWriteFollowTheirRules : Obligations.RamReadAndWriteFollowTheirRules := by
  intro r tick a b row
  have hrow : r.rowOf a = row := Ram.rowOf_eq_mod r a
  refine ⟨fun hdecayed => ?_, fun hlive => ?_, fun q => ?_, fun hbeyond => ?_, fun hrange x => ?_⟩
  · have h := decayed_of_deadline_le hdecayed
    exact ⟨readValue_of_decayed h, afterRead_of_decayed h⟩
  · have h := not_decayed_of_lt_deadline hlive
    rw [afterRead_of_not_decayed h, ← hrow]
    exact ⟨readValue_of_not_decayed h, Ram.refresh_data r tick a, Ram.refresh_deadlineAt r tick a⟩
  · rw [Ram.afterWrite_deadlineAt, hrow]
  · rw [afterWrite_of_size_le tick b hbeyond, Ram.refresh_data]
  · simp only [Ram.afterWrite_byteAt, hrange, true_and]

/-! DECAYED? (R252). -/

theorem exec_ramDecayed (now a : Nat) (s : State) :
    exec (.ramDecayed now a) s = .next (s.returning (.flag (s.ram.decayed now a))) :=
  rfl

/-- An answer alone leaves all that replacing the controller leaves. -/
theorem sameOutside_returning (s : State) (r : Returned) : SameOutside s (s.returning r) :=
  sameOutside_setCtl_returning s s.ctl r

/-- Settles O52: the arm replaces the answer alone, and the answer is the comparison with the row's deadline. -/
theorem decayedQueryIsPure : Obligations.DecayedQueryIsPure := by
  intro now a s
  have hanswer := congrArg Returned.flag (decayed_eq_decide s.ram now a)
  exact ⟨_, exec_ramDecayed now a s, hanswer, rfl, fun c => State.returning_chan s _ c, sameOutside_returning s _⟩

end Sys2Proof.Proofs
end

section
/-! PROOFS. The decoder, the encoder and the opcode table agree (R101, R117): the operation of every row is read back by
the table from its code, and a `REG` word is the code of its operation but for the data byte of a read, which no read
row hands on. -/

namespace Sys2Proof.Proofs

open Sys2Proof.Machine Sys2Proof.Laws

/-! The table reads every operation back from its code, constructor by constructor (Laws/PerInstr). -/

theorem tableReadings_encode (i : Instr) : tableReadings (encode i) = [i] := by
  cases i with
  | rdAddr0 => exact TableReading.rdAddr0
  | rdCnt0 => exact TableReading.rdCnt0
  | rdAddr1 => exact TableReading.rdAddr1
  | rdCnt1 => exact TableReading.rdCnt1
  | rdAddr2 => exact TableReading.rdAddr2
  | rdCnt2 => exact TableReading.rdCnt2
  | rdAddr3 => exact TableReading.rdAddr3
  | rdCnt3 => exact TableReading.rdCnt3
  | rdStatus => exact TableReading.rdStatus
  | rdUnmapped9 => exact TableReading.rdUnmapped9
  | rdUnmapped10 => exact TableReading.rdUnmapped10
  | rdUnmapped11 => exact TableReading.rdUnmapped11
  | rdUnmapped12 => exact TableReading.rdUnmapped12
  | rdTemp => exact TableReading.rdTemp
  | rdUnmapped14 => exact TableReading.rdUnmapped14
  | rdUnmapped15 => exact TableReading.rdUnmapped15
  | wrAddr0 v => exact TableReading.wrAddr0 v
  | wrCnt0 v => exact TableReading.wrCnt0 v
  | wrAddr1 v => exact TableReading.wrAddr1 v
  | wrCnt1 v => exact TableReading.wrCnt1 v
  | wrAddr2 v => exact TableReading.wrAddr2 v
  | wrCnt2 v => exact TableReading.wrCnt2 v
  | wrAddr3 v => exact TableReading.wrAddr3 v
  | wrCnt3 v => exact TableReading.wrCnt3 v
  | wrCommand v => exact TableReading.wrCommand v
  | wrRequest v => exact TableReading.wrRequest v
  | wrMask1 v => exact TableReading.wrMask1 v
  | wrMode v => exact TableReading.wrMode v
  | wrClrff v => exact TableReading.wrClrff v
  | wrMclr v => exact TableReading.wrMclr v
  | wrMclrMask v => exact TableReading.wrMclrMask v
  | wrMaskAll v => exact TableReading.wrMaskAll v
  | seta a => exact TableReading.seta a
  | dreq c => exact TableReading.dreq c
  | hrq => exact TableReading.hrq
  | dack c => exact TableReading.dack c
  | dmaDone c => exact TableReading.dmaDone c
  | busdata v => exact TableReading.busdata v
  | cycIdle now pages => exact TableReading.cycIdle now pages
  | cycS0 now pages => exact TableReading.cycS0 now pages
  | cycS1 now pages => exact TableReading.cycS1 now pages
  | cycS2 now pages => exact TableReading.cycS2 now pages
  | cycS3 now pages => exact TableReading.cycS3 now pages
  | cycS4 now pages => exact TableReading.cycS4 now pages
  | cycYield now pages => exact TableReading.cycYield now pages
  | mrd now a => exact TableReading.mrd now a
  | mwr now a b => exact TableReading.mwr now a b
  | ramDecayed now a => exact TableReading.ramDecayed now a
  | ramMaintain ticks => exact TableReading.ramMaintain ticks

/-! A `REG` word and the code of its operation. -/

/-- The sixteen latched addresses (R117). -/
def latches : List (BitVec 4) :=
  [0#4, 1#4, 2#4, 3#4, 4#4, 5#4, 6#4, 7#4, 8#4, 9#4, 10#4, 11#4, 12#4, 13#4, 14#4, 15#4]

theorem mem_latches : ∀ addr : BitVec 4, addr ∈ latches := by decide

/-- A read has no input byte. -/
theorem regInstr_read_eq (addr : BitVec 4) (v : Byte) : regInstr false addr v = regInstr false addr 0#8 := by
  have haddr := mem_latches addr
  fin_cases haddr <;> rfl

theorem encode_regInstr_read (addr : BitVec 4) (v : Byte) :
    encode (regInstr false addr v) = .reg (regWord false addr 0#8) := by
  have haddr := mem_latches addr
  fin_cases haddr <;> rfl

theorem encode_regInstr_write (addr : BitVec 4) (v : Byte) :
    encode (regInstr true addr v) = .reg (regWord true addr v) := by
  rw [regWord_eq_append]
  have haddr := mem_latches addr
  fin_cases haddr <;> rfl

/-- A word of 13 bits is the packing of its own fields (R101). -/
theorem eq_regWord_of_top_zero {w : BitVec 16} (h : w.extractLsb' 13 3 = 0#3) :
    w = regWord (w.getLsbD 12) (w.extractLsb' 8 4) (w.extractLsb' 0 8) := by
  apply BitVec.eq_of_getLsbD_eq
  intro i hi
  rw [regWord_bit, BitVec.getLsbD_extractLsb', BitVec.getLsbD_extractLsb']
  have htop : 13 ≤ i → w.getLsbD i = false := fun h13 => by
    have hbit := congrArg (fun b => b.getLsbD (i - 13)) h
    simpa [BitVec.getLsbD_extractLsb', Nat.add_sub_cancel' h13, show i - 13 < 3 by omega] using hbit
  split
  next h8 => simp [h8]
  next h8 =>
    split
    next h12 => simp [Nat.add_sub_cancel' (Nat.not_lt.mp h8), show i - 8 < 4 by omega]
    next h12 =>
      rcases eq_or_ne i 12 with rfl | hne
      · simp
      · simp [hne, htop (by omega)]

/-! No read row hands the data byte on, and no write row accepts a read. -/

theorem regHighByte_read_row_lt : ∀ addr : BitVec 4, ((regHighByte false addr).toNat &&& 0x1f) * 256 < 0x1000 := by
  decide

theorem eq_constant_regRow_of_mem_readRows {r : TableRow} (h : r ∈ readRows) :
    ∃ mnemonic pattern i, r = regRow mnemonic pattern (fun _ => i) := by
  fin_cases h <;> exact ⟨_, _, _, rfl⟩

theorem eq_regRow_of_mem_writeRows {r : TableRow} (h : r ∈ writeRows) :
    ∃ mnemonic pattern build, 0x1000 ≤ pattern ∧ r = regRow mnemonic pattern build := by
  fin_cases h <;> exact ⟨_, _, _, by decide, rfl⟩

theorem accepts_read_data_indep {r : TableRow} (h : r ∈ opcodeTable) (addr : BitVec 4) (v v' : Byte) :
    r.accepts (.reg (regWord false addr v)) = r.accepts (.reg (regWord false addr v')) := by
  simp only [regWord_eq_append]
  rw [opcodeTable, List.mem_append, List.mem_append] at h
  obtain hread | hwrite | hcall := h
  · obtain ⟨mnemonic, pattern, i, rfl⟩ := eq_constant_regRow_of_mem_readRows hread
    simp only [regRow, word_and_mask, word_lt]
  · obtain ⟨mnemonic, pattern, build, hpattern, rfl⟩ := eq_regRow_of_mem_writeRows hwrite
    have hrow := regHighByte_read_row_lt addr
    have hne : ¬ ((regHighByte false addr).toNat &&& 0x1f) * 256 = pattern := by omega
    simp only [regRow, word_and_mask, word_lt, hne, false_and, if_false]
  · rw [callRows_accept_no_word _ hcall, callRows_accept_no_word _ hcall]

theorem tableReadings_read_data_indep (addr : BitVec 4) (v v' : Byte) :
    tableReadings (.reg (regWord false addr v)) = tableReadings (.reg (regWord false addr v')) :=
  List.filterMap_congr fun _ h => accepts_read_data_indep h addr v v'

theorem tableReadings_regWord (dir : Bool) (addr : BitVec 4) (v : Byte) :
    tableReadings (.reg (regWord dir addr v)) = [regInstr dir addr v] := by
  cases dir with
  | false =>
    rw [tableReadings_read_data_indep addr v 0#8, ← encode_regInstr_read addr v, tableReadings_encode]
  | true => rw [← encode_regInstr_write addr v, tableReadings_encode]

/-! What no row accepts: a word above 13 bits, and a `CYC` with a number that is no state's. -/

theorem regRow_accepts_none_of_le {w : BitVec 16} (h : 0x2000 ≤ w.toNat) (mnemonic : String) (pattern : Nat)
    (build : Byte → Instr) : (regRow mnemonic pattern build).accepts (.reg w) = none :=
  if_neg fun hrow => Nat.not_lt.mpr h hrow.2

theorem tableReadings_wide_word {w : BitVec 16} (h : 0x2000 ≤ w.toNat) : tableReadings (.reg w) = [] := by
  rw [tableReadings, List.filterMap_eq_nil_iff]
  intro r hr
  rw [opcodeTable, ← List.append_assoc, List.mem_append] at hr
  obtain hreg | hcall := hr
  · obtain ⟨mnemonic, pattern, build, rfl⟩ := eq_regRow_of_mem hreg
    exact regRow_accepts_none_of_le h mnemonic pattern build
  · exact callRows_accept_no_word w hcall

theorem top_zero_iff (w : BitVec 16) : w.extractLsb' 13 3 = 0#3 ↔ w.toNat < 0x2000 := by
  rw [← BitVec.toNat_inj, BitVec.extractLsb'_toNat, Nat.shiftRight_eq_div_pow]
  simp only [BitVec.toNat_ofNat]
  omega

theorem tableReadings_cycle (p : Phase) (now : Nat) (pages : Pages) :
    tableReadings (.simulateCycle p.number now pages) = [cycInstr p now pages] := by
  cases p
  case idle => exact TableReading.cycIdle now pages
  case s0 => exact TableReading.cycS0 now pages
  case s1 => exact TableReading.cycS1 now pages
  case s2 => exact TableReading.cycS2 now pages
  case s3 => exact TableReading.cycS3 now pages
  case s4 => exact TableReading.cycS4 now pages
  case yield => exact TableReading.cycYield now pages

theorem number_of_ofNumber {n : Nat} {p : Phase} (h : Phase.ofNumber n = some p) : p.number = n := by
  unfold Phase.ofNumber at h
  split at h <;> cases h <;> rfl

theorem le_of_ofNumber_none {n : Nat} (h : Phase.ofNumber n = none) : 7 ≤ n := by
  by_contra hlt
  interval_cases n <;> cases h

theorem callRows_accept_no_cycle {n : Nat} (hn : 7 ≤ n) (now : Nat) (pages : Pages) {r : TableRow} (h : r ∈ callRows) :
    r.accepts (.simulateCycle n now pages) = none := by
  have hne : ∀ k < 7, n ≠ k := fun k hk => by omega
  revert r
  simp [callRows, callRow, clkRow, hne]

theorem tableReadings_cycle_of_none {n : Nat} (h : Phase.ofNumber n = none) (now : Nat) (pages : Pages) :
    tableReadings (.simulateCycle n now pages) = [] := by
  rw [tableReadings, List.filterMap_eq_nil_iff]
  intro r hr
  rw [opcodeTable, ← List.append_assoc, List.mem_append] at hr
  obtain hreg | hcall := hr
  · obtain ⟨mnemonic, pattern, build, rfl⟩ := eq_regRow_of_mem hreg
    rfl
  · exact callRows_accept_no_cycle (le_of_ofNumber_none h) now pages hcall

/-- Settles O2: a word of 13 bits by its fields, a `CYC` by its number; every other call has a row of its own. -/
theorem decoderReadsWhatTheTableReads : Obligations.DecoderReadsWhatTheTableReads := by
  intro c
  cases c with
  | reg w =>
    by_cases h : w.extractLsb' 13 3 = 0#3
    · rw [eq_regWord_of_top_zero h, tableReadings_regWord, decode, decodeRegWord_regWord]
    · have hwide : 0x2000 ≤ w.toNat := Nat.not_lt.mp (mt (top_zero_iff w).mpr h)
      rw [tableReadings_wide_word hwide, decode, decodeRegWord, if_neg h]
  | simulateCycle n now pages =>
    cases h : Phase.ofNumber n with
    | none => rw [tableReadings_cycle_of_none h, decode, h]
    | some p => rw [decode, h, ← number_of_ofNumber h, tableReadings_cycle]
  | setAddress a => exact tableReadings_encode (.seta a)
  | dmaRequest c => exact tableReadings_encode (.dreq c)
  | dmaRequested => exact tableReadings_encode .hrq
  | dmaAcknowledged c => exact tableReadings_encode (.dack c)
  | dmaComplete c => exact tableReadings_encode (.dmaDone c)
  | busData v => exact tableReadings_encode (.busdata v)
  | busRead now a => exact tableReadings_encode (.mrd now a)
  | busWrite now a b => exact tableReadings_encode (.mwr now a b)
  | ramDecayed now a => exact tableReadings_encode (.ramDecayed now a)
  | ramMaintain ticks => exact tableReadings_encode (.ramMaintain ticks)

/-- Settles O1: the table reads each operation back from its code, and the decoder reads what the table reads. -/
theorem decodeInvertsEncode : Obligations.DecodeInvertsEncode := by
  intro i
  have hread := (tableReadings_encode i).symm.trans (decoderReadsWhatTheTableReads (encode i))
  split at hread
  next j hj => rw [hj, List.singleton_inj.mp hread]
  next => cases hread

/-- Settles O4, by evaluation of the decoder on the nine values. -/
theorem specWordsDecode : Obligations.SpecWordsDecode :=
  ⟨rfl, rfl, rfl, rfl, rfl, rfl, rfl, rfl, rfl⟩

/-! A step runs the decoded operation. -/

theorem step_of_no_input {s : State} (h : s.inputs = []) : step s = .next s := by
  rw [step, State.nextInstr, h]

theorem nextInstr_of_cons {s : State} {call : Invocation} {rest : List Invocation} (h : s.inputs = call :: rest) :
    s.nextInstr = some (call.select s.ctl.address s.ctl.state) := by
  rw [State.nextInstr, h]

theorem step_of_nextInstr {s : State} {i : Instr} (h : s.nextInstr = some i) : step s = exec i s.dequeue := by
  rw [step, h]

theorem dequeue_of_cons {s : State} {call : Invocation} {rest : List Invocation} (h : s.inputs = call :: rest) :
    s.dequeue = { s with inputs := rest } := by
  rw [State.dequeue, h, List.tail_cons]

theorem step_of_cons {s : State} {call : Invocation} {rest : List Invocation} (h : s.inputs = call :: rest) :
    step s = exec (call.select s.ctl.address s.ctl.state) { s with inputs := rest } := by
  rw [step_of_nextInstr (nextInstr_of_cons h), dequeue_of_cons h]

/-- The register operation that a value of the opcode table stands for: its bit 12, its bits 11 to 8, its low byte. -/
theorem decodeTableWord_eq_some {nbits w : Nat} {i : Instr} (h : decodeTableWord nbits w = some i) :
    w < 0x2000 ∧ i = regInstr (decide (0x1000 ≤ w)) (BitVec.ofNat 4 (w / 256)) (BitVec.ofNat 8 w) := by
  unfold decodeTableWord at h
  split at h
  next hw =>
    have htoNat : (BitVec.ofNat 16 w).toNat = w := by rw [BitVec.toNat_ofNat]; omega
    by_cases htop : (BitVec.ofNat 16 w).extractLsb' 13 3 = 0#3
    · have hlt := (top_zero_iff _).mp htop
      rw [htoNat] at hlt
      have hdir : (BitVec.ofNat 16 w).getLsbD 12 = decide (0x1000 ≤ w) := by
        rw [BitVec.getLsbD, htoNat, Nat.testBit_eq_decide_div_mod_eq]
        congr 1
        apply propext
        omega
      have haddr : (BitVec.ofNat 16 w).extractLsb' 8 4 = BitVec.ofNat 4 (w / 256) := by
        rw [BitVec.extractLsb', htoNat, Nat.shiftRight_eq_div_pow]
      have hdata : (BitVec.ofNat 16 w).extractLsb' 0 8 = BitVec.ofNat 8 w := by
        rw [BitVec.extractLsb', htoNat, Nat.shiftRight_zero]
      rw [decode, decodeRegWord, if_pos htop, hdir, haddr, hdata] at h
      exact ⟨hlt, (Option.some.inj h).symm⟩
    · rw [decode, decodeRegWord, if_neg htop] at h
      cases h
  next => cases h

/-- The placed call is the access whose direction, latch and byte the word holds. -/
theorem step_withFetchWord {w : Nat} (hw : w < 0x2000) (s : State) (nbits : Nat) :
    step (s.withFetchWord nbits w) =
      exec (regInstr (decide (0x1000 ≤ w)) (BitVec.ofNat 4 (w / 256)) (BitVec.ofNat 8 w))
        { s with ctl := { s.ctl with address := BitVec.ofNat 4 (w / 256) } } := by
  rw [State.withFetchWord, if_pos hw]
  by_cases hread : w < 0x1000
  · rw [if_pos hread, step_of_cons rfl, decide_eq_false (Nat.not_le.mpr hread), regInstr_read_eq]
    rfl
  · rw [if_neg hread, step_of_cons rfl, decide_eq_true (Nat.not_lt.mp hread)]
    rfl

/-- Settles O5: the oldest call's code decodes to what `select` makes of it (`Laws.decode_code`). -/
theorem stepRunsTheDecodedOperation : Obligations.StepRunsTheDecodedOperation := by
  intro s
  refine ⟨step_of_no_input, fun call rest hinputs => ?_, fun nbits w i hdecode => ?_⟩
  · exact ⟨_, decode_code s.ctl.address s.ctl.state call, step_of_cons hinputs⟩
  · obtain ⟨hw, rfl⟩ := decodeTableWord_eq_some hdecode
    exact step_withFetchWord hw s nbits

end Sys2Proof.Proofs
end

section
/-! PROOFS. Frames: what two states share that differ only in the parts an operation replaces. -/

namespace Sys2Proof.Proofs

open Sys2Proof.Machine

section Frames

variable {s t u : State}

theorem sameConfiguration_of_eq (hram : t.ram = s.ram) (htemp : t.tempClearOnRead = s.tempClearOnRead) :
    SameConfiguration s t := by
  rw [SameConfiguration, hram]
  exact ⟨rfl, rfl, rfl, rfl, htemp⟩

theorem sameRam_of_eq (hram : t.ram = s.ram) (htemp : t.tempClearOnRead = s.tempClearOnRead) : SameRam s t :=
  ⟨fun a => congrArg (fun r => r.byteAt a) hram, fun row => congrArg (fun r => r.deadlineAt row) hram,
    sameConfiguration_of_eq hram htemp⟩

theorem sameChannels_trans (hst : SameChannels s t) (htu : SameChannels t u) : SameChannels s u :=
  fun c => (htu c).trans (hst c)

theorem sameConfiguration_trans (hst : SameConfiguration s t) (htu : SameConfiguration t u) :
    SameConfiguration s u := by
  obtain ⟨h1, h2, h3, h4, h5⟩ := hst
  obtain ⟨k1, k2, k3, k4, k5⟩ := htu
  exact ⟨k1.trans h1, k2.trans h2, k3.trans h3, k4.trans h4, k5.trans h5⟩

theorem sameOutside_trans (hst : SameOutside s t) (htu : SameOutside t u) : SameOutside s u := by
  obtain ⟨⟨hbyte, hdeadline, hconfig⟩, hbus, hinputs, hdraws⟩ := hst
  obtain ⟨⟨kbyte, kdeadline, kconfig⟩, kbus, kinputs, kdraws⟩ := htu
  exact ⟨⟨fun a => (kbyte a).trans (hbyte a), fun row => (kdeadline row).trans (hdeadline row),
    sameConfiguration_trans hconfig kconfig⟩, kbus.trans hbus, kinputs.trans hinputs, kdraws.trans hdraws⟩

end Frames

/-- Replacing the four channels and the controller, and answering, leaves everything outside as it was. -/
theorem sameOutside_set_returning (s : State) (q : Quad Channel) (x : Controller) (r : Returned) :
    SameOutside s ({ s with ch := q, ctl := x }.returning r) :=
  ⟨sameRam_of_eq rfl rfl, rfl, rfl, rfl⟩

/-- So does an arbitration after it. -/
theorem sameOutside_checkForDMA_set_returning (s : State) (q : Quad Channel) (x : Controller) (r : Returned) :
    SameOutside s ((checkForDMA { s with ch := q, ctl := x }).returning r) := by
  rw [checkForDMA_eq]
  exact sameOutside_set_returning s q _ r

end Sys2Proof.Proofs
end

section
/-! PROOFS. The 16-bit registers through the 8-bit port (R108, R193, R194): the two halves as numbers, and the read and
the write rows of the four channels as one equation each. -/

namespace Sys2Proof.Proofs

open Sys2Proof.Machine

/-! The halves of a register (R108). -/

theorem toNat_append_byte (h v : Byte) : (h ++ v).toNat = 256 * h.toNat + v.toNat := by
  rw [BitVec.toNat_append, ← Nat.shiftLeft_add_eq_or_of_lt v.isLt, Nat.shiftLeft_eq, Nat.mul_comm]

theorem halfOf_eq_ofNat (high : Bool) (r : Word16) :
    halfOf high r = BitVec.ofNat 8 (if high then r.toNat / 256 else r.toNat) := by
  cases high with
  | false => rfl
  | true => exact congrArg (BitVec.ofNat 8) (Nat.shiftRight_eq_div_pow r.toNat 8)

theorem halves_append (r : Word16) : halfOf true r ++ halfOf false r = r := by
  apply BitVec.eq_of_toNat_eq
  have hr := r.isLt
  rw [toNat_append_byte, halfOf_eq_ofNat, halfOf_eq_ofNat, BitVec.toNat_ofNat, BitVec.toNat_ofNat]
  simp only [if_true, Bool.false_eq_true, if_false]
  omega

theorem mergeHalf_toNat (high : Bool) (b : Byte) (r : Word16) : (mergeHalf high b r).toNat = mergedValue high b r := by
  have hr := r.isLt
  have hlow : (r.extractLsb' 0 8).toNat = r.toNat % 256 := by rw [BitVec.extractLsb'_toNat, Nat.shiftRight_zero]
  have hhigh : (r.extractLsb' 8 8).toNat = r.toNat / 256 := by
    rw [BitVec.extractLsb'_toNat, Nat.shiftRight_eq_div_pow]
    omega
  cases high with
  | false => rw [mergeHalf, if_neg Bool.false_ne_true, toNat_append_byte, hhigh]; rfl
  | true => rw [mergeHalf, if_pos rfl, toNat_append_byte, hlow]; rfl

/-- Both halves written, the low one first, make the value, whatever the register held. -/
theorem mergeHalf_low_then_high (w r : Word16) :
    mergeHalf true (BitVec.ofNat 8 (w.toNat / 256)) (mergeHalf false (BitVec.ofNat 8 w.toNat) r) = w := by
  apply BitVec.eq_of_toNat_eq
  have hw := w.isLt
  simp only [mergeHalf_toNat, mergedValue, BitVec.toNat_ofNat, if_true, Bool.false_eq_true, if_false]
  omega

/-! The read rows (R193). -/

theorem exec_rdChannelInstr (c : ChanId) (sel : RegSelect) (s : State) :
    exec (rdChannelInstr c sel) s = .next (readChannelReg c sel s) := by
  fin_cases c <;> cases sel <;> rfl

section Read

variable (c : ChanId) (sel : RegSelect) (s : State)

theorem readChannelReg_returned :
    (readChannelReg c sel s).returned = .byte (halfOf s.ctl.lastByte ((s.chan c).currentReg sel)) :=
  rfl

theorem readChannelReg_ctl : (readChannelReg c sel s).ctl = { s.ctl with lastByte := !s.ctl.lastByte } := rfl

theorem readChannelReg_lastByte : (readChannelReg c sel s).ctl.lastByte = !s.ctl.lastByte := rfl

theorem readChannelReg_twice_ctl : (readChannelReg c sel (readChannelReg c sel s)).ctl = s.ctl := by
  simp only [readChannelReg_ctl, Bool.not_not]

theorem sameChannels_readChannelReg : SameChannels s (readChannelReg c sel s) :=
  sameChannels_setCtl_returning s _ _

theorem sameOutside_readChannelReg : SameOutside s (readChannelReg c sel s) :=
  sameOutside_setCtl_returning s _ _

end Read

/-- Settles O10: the row is `readChannelReg`, and the half it returns is a byte of the register as a number. -/
theorem channelReadReturnsTheSelectedHalf : Obligations.ChannelReadReturnsTheSelectedHalf := by
  intro c sel s
  refine ⟨readChannelReg c sel s, exec_rdChannelInstr c sel s, ?_, rfl, sameChannels_readChannelReg c sel s,
    sameOutside_readChannelReg c sel s⟩
  rw [readChannelReg_returned, halfOf_eq_ofNat]
  cases sel <;> rfl

/-- Settles O11: the first read leaves the toggle true and the channel as it was, so the second returns the high
half. -/
theorem twoReadsReturnTheWholeRegister : Obligations.TwoReadsReturnTheWholeRegister := by
  intro c sel s htoggle
  have hchan : (readChannelReg c sel s).chan c = s.chan c := sameChannels_readChannelReg c sel s c
  refine ⟨readChannelReg c sel s, readChannelReg c sel (readChannelReg c sel s),
    halfOf false ((s.chan c).currentReg sel), halfOf true ((s.chan c).currentReg sel),
    exec_rdChannelInstr c sel s, exec_rdChannelInstr c sel _, ?_, ?_, ?_, readChannelReg_twice_ctl c sel s, ?_, ?_⟩
  · rw [readChannelReg_returned, htoggle]
  · rw [readChannelReg_returned, readChannelReg_lastByte, htoggle, hchan, Bool.not_false]
  · rw [halves_append]
    cases sel <;> rfl
  · exact sameChannels_trans (sameChannels_readChannelReg c sel s) (sameChannels_readChannelReg c sel _)
  · exact sameOutside_trans (sameOutside_readChannelReg c sel s) (sameOutside_readChannelReg c sel _)

/-! The write rows (R194). -/

theorem exec_wrChannelInstr (c : ChanId) (sel : RegSelect) (v : Byte) (s : State) :
    exec (wrChannelInstr c sel v) s = .next (writeChannelReg c sel v s) := by
  fin_cases c <;> cases sel <;> rfl

section Write

variable (c : ChanId) (sel : RegSelect) (v : Byte) (s : State)

theorem writeChannelReg_chan_same : (writeChannelReg c sel v s).chan c = (s.chan c).write sel v s.ctl.lastByte :=
  State.chan_modChan_same s c (fun x => x.write sel v s.ctl.lastByte)

theorem writeChannelReg_chan_of_ne {d : ChanId} (h : d ≠ c) : (writeChannelReg c sel v s).chan d = s.chan d :=
  chan_modChan_of_ne s (fun x => x.write sel v s.ctl.lastByte) h

theorem writeChannelReg_ctl : (writeChannelReg c sel v s).ctl = { s.ctl with lastByte := !s.ctl.lastByte } := rfl

theorem writeChannelReg_lastByte : (writeChannelReg c sel v s).ctl.lastByte = !s.ctl.lastByte := rfl

theorem writeChannelReg_twice_ctl (v' : Byte) :
    (writeChannelReg c sel v' (writeChannelReg c sel v s)).ctl = s.ctl := by
  simp only [writeChannelReg_ctl, Bool.not_not]

theorem sameOutside_writeChannelReg : SameOutside s (writeChannelReg c sel v s) := sameOutside_set_returning s _ _ _

end Write

/-- Settles O12: the row is `writeChannelReg`, and each merged register is a number. -/
theorem channelWriteMergesTheSelectedHalf : Obligations.ChannelWriteMergesTheSelectedHalf := by
  intro c sel v s
  let merged (r : Word16) : Word16 := mergeHalf s.ctl.lastByte v r
  refine ⟨writeChannelReg c sel v s, merged ((s.chan c).baseReg sel), merged ((s.chan c).currentReg sel),
    exec_wrChannelInstr c sel v s, ?_, fun d hd => writeChannelReg_chan_of_ne c sel v s hd, rfl,
    sameOutside_writeChannelReg c sel v s, rfl⟩
  cases sel with
  | address => exact ⟨mergeHalf_toNat _ _ _, mergeHalf_toNat _ _ _, writeChannelReg_chan_same c .address v s⟩
  | count => exact ⟨mergeHalf_toNat _ _ _, mergeHalf_toNat _ _ _, writeChannelReg_chan_same c .count v s⟩

/-- Settles O13: the first write leaves the toggle true, and the two halves written make the value. -/
theorem twoWritesLoadBaseAndCurrent : Obligations.TwoWritesLoadBaseAndCurrent := by
  intro c sel w s htoggle
  let lo : Byte := BitVec.ofNat 8 w.toNat
  let hi : Byte := BitVec.ofNat 8 (w.toNat / 256)
  refine ⟨writeChannelReg c sel lo s, writeChannelReg c sel hi (writeChannelReg c sel lo s),
    exec_wrChannelInstr c sel lo s, exec_wrChannelInstr c sel hi _, ?_, fun d hd => ?_,
    writeChannelReg_twice_ctl c sel lo s hi, ?_⟩
  · rw [writeChannelReg_chan_same, writeChannelReg_chan_same, writeChannelReg_lastByte, htoggle, Bool.not_false]
    cases sel <;> simp only [Channel.write, lo, hi, mergeHalf_low_then_high]
  · rw [writeChannelReg_chan_of_ne c sel hi _ hd, writeChannelReg_chan_of_ne c sel lo s hd]
  · exact sameOutside_trans (sameOutside_writeChannelReg c sel lo s) (sameOutside_writeChannelReg c sel hi _)

end Sys2Proof.Proofs
end

section
/-! PROOFS. The other rows of the register file that run no arbitration: the status, temporary and unmapped reads (R195,
R201, R205), and the command, toggle and mode writes (R196, R199, R200). -/

namespace Sys2Proof.Proofs

open Sys2Proof.Machine

/-! The status byte (R107, R143). -/

theorem channel_statusByte_bit (x : Channel) (n : Nat) :
    x.statusByte.getLsbD n = ((decide (n = 0) && x.terminalCount) || (decide (n = 4) && x.request)) := by
  have h1 : (0x01#8).getLsbD n = decide (n = 0) := by simp [BitVec.getLsbD_one]
  have h16 : (0x10#8).getLsbD n = decide (n = 4) := by
    rw [show 0x10#8 = BitVec.twoPow 8 4 from rfl, BitVec.getLsbD_twoPow]
    simp [eq_comm]
  rw [Channel.statusByte, BitVec.getLsbD_or]
  cases x.terminalCount <;> cases x.request <;> simp [h1, h16]

theorem statusByte_bit (s : State) (n : Nat) :
    s.statusByte.getLsbD n =
      ((s.chan 0).statusByte.getLsbD n ||
        (decide (n < 8) && !decide (n < 1) && (s.chan 1).statusByte.getLsbD (n - 1)) ||
        (decide (n < 8) && !decide (n < 2) && (s.chan 2).statusByte.getLsbD (n - 2)) ||
        (decide (n < 8) && !decide (n < 3) && (s.chan 3).statusByte.getLsbD (n - 3))) := by
  simp only [State.statusByte, BitVec.getLsbD_or, BitVec.getLsbD_shiftLeft]

theorem statusByte_terminalCount_bit (s : State) (c : ChanId) :
    s.statusByte.getLsbD c.val = (s.chan c).terminalCount := by
  rw [statusByte_bit]
  simp only [channel_statusByte_bit]
  fin_cases c <;> simp

theorem statusByte_request_bit (s : State) (c : ChanId) : s.statusByte.getLsbD (4 + c.val) = (s.chan c).request := by
  rw [statusByte_bit]
  simp only [channel_statusByte_bit]
  fin_cases c <;> simp

theorem exec_rdStatus (s : State) :
    exec .rdStatus s =
      .next ({ s with ch := s.ch.mapIdx (fun _ x => x.afterStatus) }.returning (.byte s.statusByte)) :=
  rfl

/-- Settles O14: the two bits of each channel, and the four latches cleared at once. -/
theorem statusReadReportsThenClears : Obligations.StatusReadReportsThenClears := by
  intro s
  exact ⟨_, s.statusByte, exec_rdStatus s, rfl,
    fun c => ⟨statusByte_terminalCount_bit s c, statusByte_request_bit s c, Quad.get_mapIdx _ s.ch c⟩, rfl,
    sameOutside_set_returning s _ _ _⟩

theorem exec_rdTemp (s : State) :
    exec .rdTemp s =
      .next
        ((s.setCtl { s.ctl with temporary := if s.tempClearOnRead then 0x00#8 else s.ctl.temporary }).returning
          (.byte s.ctl.temporary)) := by
  have harm : exec .rdTemp s = execRdTemp s := rfl
  rw [harm, execRdTemp]
  split <;> rfl

/-- Settles O15: one replacement of the controller. -/
theorem temporaryReadReturnsThenClears : Obligations.TemporaryReadReturnsThenClears := by
  intro s
  exact ⟨_, exec_rdTemp s, rfl, rfl, sameChannels_setCtl_returning _ _ _, sameOutside_setCtl_returning _ _ _⟩

theorem exec_unmapped {i : Instr} (h : i ∈ unmappedReads) (s : State) : exec i s = .next (readUnmapped s) := by
  fin_cases h <;> rfl

/-- Settles O16: all six rows are `readUnmapped`, which writes the model's own fields alone. -/
theorem unmappedReadsChangeNothing : Obligations.UnmappedReadsChangeNothing := by
  intro i hi s
  exact ⟨_, exec_unmapped hi s, rfl, rfl, fun _ => rfl, sameRam_of_eq rfl rfl, rfl, rfl, rfl⟩

theorem exec_wrCommand (v : Byte) (s : State) :
    exec (.wrCommand v) s = .next ((s.setCtl { s.ctl with command := v }).returning .nothing) :=
  rfl

theorem exec_wrClrff (v : Byte) (s : State) :
    exec (.wrClrff v) s = .next ((s.setCtl { s.ctl with lastByte := false }).returning .nothing) :=
  rfl

/-- Settles O17: each of the two rows is one replacement of the controller. -/
theorem commandWriteAndToggleReset : Obligations.CommandWriteAndToggleReset := by
  refine ⟨fun v s => ?_, fun v s => ?_⟩
  · exact ⟨_, exec_wrCommand v s, rfl, sameChannels_setCtl_returning _ _ _, sameOutside_setCtl_returning _ _ _, rfl⟩
  · exact ⟨_, exec_wrClrff v s, rfl, sameChannels_setCtl_returning _ _ _, sameOutside_setCtl_returning _ _ _, rfl⟩

/-! The channel that a data byte names (R104, R105). -/

/-- Two neighbouring bits of a byte as a number. -/
theorem twoBits_eq (v : Byte) (k : Nat) :
    v.toNat / 2 ^ k % 4 = 2 * (v.getLsbD (k + 1)).toNat + (v.getLsbD k).toNat := by
  simp only [BitVec.getLsbD, Nat.toNat_testBit, Nat.pow_succ, ← Nat.div_div_eq_div_mul]
  omega

theorem chSel_val (v : Byte) : (chSel v).val = v.toNat % 4 := by
  rw [← Nat.div_one v.toNat, show 1 = 2 ^ 0 from rfl, twoBits_eq, chSel]
  cases v.getLsbD 1 <;> cases v.getLsbD 0 <;> rfl

theorem chan_modChan_chSel (s : State) (v : Byte) (f : Channel → Channel) (c : ChanId) :
    (s.modChan (chSel v) f).chan c = if c.val = v.toNat % 4 then f (s.chan c) else s.chan c := by
  rw [State.chan_modChan, ← chSel_val]
  by_cases h : c = chSel v
  · rw [if_pos h, if_pos (congrArg Fin.val h), h]
  · rw [if_neg h, if_neg (mt Fin.ext h)]

theorem exec_wrMode (v : Byte) (s : State) :
    exec (.wrMode v) s = .next ((s.modChan (chSel v) (Channel.setMode v)).returning .nothing) :=
  rfl

/-- Settles O18: one channel is replaced, the one whose number is the byte modulo 4. -/
theorem modeWriteStoresTheWholeByte : Obligations.ModeWriteStoresTheWholeByte := by
  intro v s
  exact ⟨_, exec_wrMode v s, fun c => chan_modChan_chSel s v _ c, rfl, sameOutside_set_returning s _ _ _, rfl⟩

/-! The fields of the mode byte (R103). -/

theorem transferType_number (x : Channel) : x.transferType.number = x.mode.toNat / 4 % 4 := by
  refine Eq.trans ?_ (twoBits_eq x.mode 2).symm
  rw [Channel.transferType]
  cases x.mode.getLsbD 3 <;> cases x.mode.getLsbD 2 <;> rfl

theorem transferMode_number (x : Channel) : x.transferMode.number = x.mode.toNat / 64 := by
  have hmode := x.mode.isLt
  rw [← Nat.mod_eq_of_lt (show x.mode.toNat / 64 < 4 by omega), show 64 = 2 ^ 6 from rfl, twoBits_eq x.mode 6,
    Channel.transferMode]
  cases x.mode.getLsbD 7 <;> cases x.mode.getLsbD 6 <;> rfl

theorem mode_bit_iff (m : Byte) (n : Nat) : m.getLsbD n = true ↔ m.toNat / 2 ^ n % 2 = 1 := by
  rw [BitVec.getLsbD, Nat.testBit_eq_decide_div_mod_eq, decide_eq_true_iff]

/-- Settles O19: the two-bit fields by their four values, the single bits as they are. -/
theorem modeQueriesReadTheModeByte : Obligations.ModeQueriesReadTheModeByte := by
  intro x
  exact ⟨transferType_number x, transferMode_number x, mode_bit_iff x.mode 4, mode_bit_iff x.mode 5⟩

end Sys2Proof.Proofs
end

section
/-! PROOFS. Power-on (R48), and the fields that are saved and loaded (R46). -/

namespace Sys2Proof.Proofs

open Sys2Proof.Machine

theorem powerOn_chan (cfg : Config) (u : Unspecified) (c : ChanId) :
    (State.powerOn cfg u).chan c =
      Channel.powerOn (u.modes.get c) (u.baseAddresses.get c) (u.baseCounts.get c) (u.currentAddresses.get c)
        (u.currentCounts.get c) := by
  fin_cases c <;> rfl

/-- Every deadline is 0 at power-on (decision D21). -/
theorem powerOn_decayed (cfg : Config) (u : Unspecified) (tick a : Nat) :
    (State.powerOn cfg u).ram.decayed tick a = true :=
  decide_eq_true (Nat.zero_le tick)

theorem ramDecayTicks_default {cfg : Config} (h : cfg.decayTime = none) :
    ramDecayTicks cfg = (2 ^ cfg.rowBits * cfg.ticksPerSecond) / 64000 := by
  rw [ramDecayTicks, h, defaultDecayTicks]

theorem ramDecayTicks_configured {cfg : Config} {t : DecayTime} (h : cfg.decayTime = some t) :
    ramDecayTicks cfg = (t.num * cfg.ticksPerSecond) / t.den := by
  rw [ramDecayTicks, h]
  rfl

/-- Settles O6: the table's values are those the power-on state is built from. -/
theorem powerOnHoldsTheResetValues : Obligations.PowerOnHoldsTheResetValues := by
  refine ⟨fun cfg u => ⟨rfl, fun c => ?_, powerOn_decayed cfg u, ramDecayTicks_default,
    fun _ => ramDecayTicks_configured, rfl, rfl, rfl, rfl, rfl, rfl⟩, rfl⟩
  rw [powerOn_chan]
  exact ⟨rfl, rfl⟩

/-- The invariant at power-on: the cache holds the sentinel, `dAck` is false in Idle, and no deadline is listed. -/
theorem inv_powerOn (cfg : Config) (u : Unspecified) (hwf : Memory.wf u.data = true)
    (hsize : ∀ e ∈ u.data, e.1 < cfg.ramSize) : Inv (State.powerOn cfg u) :=
  ⟨⟨hwf, hsize, rfl, fun _ he => absurd he List.not_mem_nil⟩, rfl, fun _ => rfl, Or.inl rfl⟩

/-- Settles O7: the reset state is a power-on state with an empty memory list. -/
theorem powerOnMeetsTheInvariant : Obligations.PowerOnMeetsTheInvariant :=
  ⟨inv_powerOn, inv_powerOn Config.reference Unspecified.zero reset_memory_wf fun _ he => absurd he List.not_mem_nil⟩

/-- Saving reads back exactly the fields that loading writes. -/
theorem save_load (s : State) (v : Saved) (u : Unsaved) : (s.load v u).save = v := rfl

/-- Settles O60: a load writes every saved and every omitted field, and keeps the configuration. -/
theorem savedStateRoundTrips : Obligations.SavedStateRoundTrips := by
  refine ⟨fun s s2 u => ?_, fun s v u => ?_⟩
  · exact ⟨rfl, rfl, fun _ => rfl, rfl, rfl, rfl, fun _ => rfl, fun _ => rfl⟩
  · exact ⟨save_load s v u, rfl, rfl, rfl, rfl, rfl, rfl, rfl, rfl, rfl⟩

end Sys2Proof.Proofs
end

section
/-! PROOFS. The register writes that run an arbitration (R197, R198, R203, R204): each is one change of channels
followed by `checkForDMA`. -/

namespace Sys2Proof.Proofs

open Sys2Proof.Machine

section ArbitratingWrites

variable (v : Byte) (s : State)

theorem exec_wrRequest :
    exec (.wrRequest v) s =
      .next ((checkForDMA (s.modChan (chSel v) (Channel.setSoft (valueBit v)))).returning .nothing) :=
  rfl

theorem exec_wrMask1 :
    exec (.wrMask1 v) s =
      .next ((checkForDMA (s.modChan (chSel v) (Channel.setMask (valueBit v)))).returning .nothing) :=
  rfl

theorem exec_wrMclrMask :
    exec (.wrMclrMask v) s =
      .next ((checkForDMA { s with ch := s.ch.mapIdx (fun _ x => x.setMask false) }).returning .nothing) :=
  rfl

theorem exec_wrMaskAll :
    exec (.wrMaskAll v) s =
      .next ((checkForDMA { s with ch := s.ch.mapIdx (fun c x => x.setMask (maskBit v c)) }).returning .nothing) :=
  rfl

end ArbitratingWrites

/-- What a channel holds after each of the four is changed by its number. -/
theorem chan_mapIdx (s : State) (f : ChanId → Channel → Channel) (c : ChanId) :
    State.chan { s with ch := s.ch.mapIdx f } c = f c (s.chan c) :=
  Quad.get_mapIdx f s.ch c

/-- Settles O20: the state that the arbiter reads is `s` with one soft request written. -/
theorem requestWriteSetsSoftRequestThenArbitrates : Obligations.RequestWriteSetsSoftRequestThenArbitrates := by
  intro v s
  exact ⟨_, _, exec_wrRequest v s, chan_modChan_chSel s v (Channel.setSoft (valueBit v)), rfl,
    sameChannels_checkForDMA_returning _ _, checkForDMA_ctl _, sameOutside_checkForDMA_modChan_returning s _ _ _, rfl⟩

/-- Settles O21: the state that the arbiter reads is `s` with one mask written. -/
theorem singleMaskWriteSetsMaskThenArbitrates : Obligations.SingleMaskWriteSetsMaskThenArbitrates := by
  intro v s
  exact ⟨_, _, exec_wrMask1 v s, chan_modChan_chSel s v (Channel.setMask (valueBit v)), rfl,
    sameChannels_checkForDMA_returning _ _, checkForDMA_ctl _, sameOutside_checkForDMA_modChan_returning s _ _ _, rfl⟩

/-- Settles O22: the state that the arbiter reads is `s` with the four masks written. -/
theorem maskRegisterWritesSetAllMasks : Obligations.MaskRegisterWritesSetAllMasks := by
  refine ⟨fun v s => ?_, fun v s => ?_⟩
  · exact ⟨_, _, exec_wrMclrMask v s, chan_mapIdx s fun _ x => x.setMask false, rfl,
      sameChannels_checkForDMA_returning _ _, checkForDMA_ctl _, sameOutside_checkForDMA_set_returning s _ s.ctl _, rfl⟩
  · exact ⟨_, _, exec_wrMaskAll v s, chan_mapIdx s fun c x => x.setMask (maskBit v c), rfl,
      sameChannels_checkForDMA_returning _ _, checkForDMA_ctl _, sameOutside_checkForDMA_set_returning s _ s.ctl _, rfl⟩

end Sys2Proof.Proofs
end

section
/-! PROOFS. The handshake (R240 to R244) and the refusals (R9, R255): a channel number is in range and the operation
runs on that channel, or it is not and the operation is refused by name. -/

namespace Sys2Proof.Proofs

open Sys2Proof.Machine

theorem onChannel_of_le {c : Nat} (h : 4 ≤ c) (f : ChanId → State) : onChannel c f = .refused (.channelOutOfRange c) :=
  dif_neg (Nat.not_lt.mpr h)

theorem onChannel_eq_next {c : Nat} {f : ChanId → State} {t : State} (h : onChannel c f = .next t) :
    ∃ k : ChanId, k.val = c ∧ t = f k := by
  unfold onChannel at h
  split at h
  next hc => exact ⟨⟨c, hc⟩, rfl, (Host.Outcome.next.inj h).symm⟩
  next => cases h

/-! The three operations with a channel argument (R9, decision D26). -/

theorem exec_dreq_eq_onChannel (c : Nat) (s : State) :
    exec (.dreq c) s = onChannel c fun k => (checkForDMA (s.modChan k (Channel.setHard true))).returning .nothing :=
  rfl

theorem exec_dack_eq_onChannel (c : Nat) (s : State) :
    exec (.dack c) s = onChannel c fun k => s.returning (.flag (s.acknowledged k)) :=
  rfl

theorem exec_dmaDone_eq_onChannel (c : Nat) (s : State) :
    exec (.dmaDone c) s = onChannel c fun k => (checkForDMA (s.modChan k (Channel.setHard false))).returning .nothing :=
  rfl

theorem exec_dreq (c : ChanId) (s : State) :
    exec (.dreq c.val) s = .next ((checkForDMA (s.modChan c (Channel.setHard true))).returning .nothing) := by
  rw [exec_dreq_eq_onChannel, onChannel_val]

/-- Settles O24: the state that the arbiter reads is `s` with the hard request of the channel true. -/
theorem dreqSetsHardRequestThenArbitrates : Obligations.DreqSetsHardRequestThenArbitrates := by
  intro c s
  exact ⟨s.modChan c (Channel.setHard true), _, exec_dreq c s, State.chan_modChan_same s c _,
    fun _ hd => chan_modChan_of_ne s _ hd, rfl, sameChannels_checkForDMA_returning _ _, checkForDMA_ctl _,
    sameOutside_checkForDMA_modChan_returning s c _ _, rfl⟩

theorem exec_hrq (s : State) :
    exec .hrq s =
      .next
        ((s.setCtl (if s.ctl.state = .s0 then { s.ctl with state := .s1 } else s.ctl)).returning
          (.flag s.holdRequested)) := by
  have harm : exec .hrq s = execHrq s := rfl
  rw [harm, execHrq]
  by_cases h : s.ctl.state = .s0
  · rw [if_pos (beq_iff_eq.mpr h), if_pos h, enter_of_keepsCache s rfl]
  · rw [if_neg (mt beq_iff_eq.mp h), if_neg h]
    rfl

theorem holdRequested_eq (s : State) : s.holdRequested = decide (s.ctl.state ≠ .idle) := by
  rw [State.holdRequested, bne, decide_not]
  rfl

/-- Settles O26: one replacement of the controller, in S0 only. -/
theorem holdRequestStartsAGrantedTransfer : Obligations.HoldRequestStartsAGrantedTransfer := by
  intro s
  exact ⟨_, exec_hrq s, congrArg Returned.flag (holdRequested_eq s), rfl, sameChannels_setCtl_returning _ _ _,
    sameOutside_setCtl_returning _ _ _⟩

theorem exec_dack (c : ChanId) (s : State) :
    exec (.dack c.val) s = .next (s.returning (.flag (s.acknowledged c))) := by
  rw [exec_dack_eq_onChannel, onChannel_val]

theorem acknowledged_eq (s : State) (c : ChanId) :
    s.acknowledged c = (decide (c = s.ctl.channel) && s.ctl.dAck) := rfl

/-- Settles O27: the arm replaces the answer alone. -/
theorem acknowledgeQueryIsPure : Obligations.AcknowledgeQueryIsPure := by
  intro c s
  exact ⟨_, exec_dack c s, congrArg Returned.flag (acknowledged_eq s c), rfl, fun d => State.returning_chan s _ d,
    sameOutside_returning s _⟩

/-- An answer true names the channel in service, and `dAck` is asserted. -/
theorem channel_eq_of_dack_true {c : Nat} {s t : State} (h : exec (.dack c) s = .next t)
    (htrue : t.returned = .flag true) : c = s.ctl.channel.val ∧ s.ctl.dAck = true := by
  rw [exec_dack_eq_onChannel] at h
  obtain ⟨k, rfl, rfl⟩ := onChannel_eq_next h
  have hack : s.acknowledged k = true := Returned.flag.inj htrue
  rw [acknowledged_eq, Bool.and_eq_true, decide_eq_true_iff] at hack
  exact ⟨congrArg Fin.val hack.1, hack.2⟩

/-- Settles O28: both answers name the channel in service, and the invariant says in which states `dAck` is asserted. -/
theorem atMostOneChannelIsAcknowledged : Obligations.AtMostOneChannelIsAcknowledged := by
  intro c d s t u hc hd htrue hutrue
  obtain ⟨hcs, hdack⟩ := channel_eq_of_dack_true hc htrue
  obtain ⟨hds, -⟩ := channel_eq_of_dack_true hd hutrue
  refine ⟨hcs.trans hds.symm, hcs, fun hinv => ?_⟩
  obtain ⟨-, hphase, -, -⟩ := hinv
  rw [DackInTransfer, hdack] at hphase
  simpa using hphase.symm

theorem exec_busdata (v : Byte) (s : State) :
    exec (.busdata v) s = .next ((s.setBus { s.bus with data := v }).returning .nothing) :=
  rfl

/-- Settles O29: the arm replaces the data latch alone. -/
theorem busdataFillsTheLatch : Obligations.BusdataFillsTheLatch := by
  intro v s
  exact ⟨_, exec_busdata v s, rfl, rfl, fun _ => rfl, sameRam_of_eq rfl rfl, ⟨rfl, rfl⟩, rfl⟩

/-! Refusals. -/

theorem exec_ramMaintain (n : Nat) (s : State) : exec (.ramMaintain n) s = .refused .maintainNotInHardware := rfl

/-- DREQ, DACK? and DONE of a number above 3 are refused. -/
theorem exec_of_channel_out_of_range {c : Nat} (hc : 4 ≤ c) {i : Instr}
    (hi : i = .dreq c ∨ i = .dack c ∨ i = .dmaDone c) (s : State) : exec i s = .refused (.channelOutOfRange c) := by
  rcases hi with rfl | rfl | rfl
  · rw [exec_dreq_eq_onChannel, onChannel_of_le hc]
  · rw [exec_dack_eq_onChannel, onChannel_of_le hc]
  · rw [exec_dmaDone_eq_onChannel, onChannel_of_le hc]

/-- Settles O31: the refusals of RAM.maintain and of a channel number above 3. -/
theorem maintainAndChannelsOutOfRangeAreRefused : Obligations.MaintainAndChannelsOutOfRangeAreRefused :=
  ⟨exec_ramMaintain, fun _ s hc => ⟨exec_of_channel_out_of_range hc (.inl rfl) s,
    exec_of_channel_out_of_range hc (.inr (.inl rfl)) s, exec_of_channel_out_of_range hc (.inr (.inr rfl)) s⟩⟩

/-- What lies outside the domain is a channel number above 3 (decision D26). -/
theorem channel_out_of_range_of_not_wellFormed {i : Instr} (h : i.wellFormed = false) :
    ∃ c, 4 ≤ c ∧ (i = .dreq c ∨ i = .dack c ∨ i = .dmaDone c) := by
  cases i with
  | dreq c => exact ⟨c, Nat.not_lt.mp (of_decide_eq_false h), .inl rfl⟩
  | dack c => exact ⟨c, Nat.not_lt.mp (of_decide_eq_false h), .inr (.inl rfl)⟩
  | dmaDone c => exact ⟨c, Nat.not_lt.mp (of_decide_eq_false h), .inr (.inr rfl)⟩
  | _ => cases h

/-- Every operation of the domain but RAM.maintain completes. -/
theorem exec_answers {i : Instr} (hwf : i.wellFormed = true) (hmaintain : ∀ n, i ≠ .ramMaintain n) (s : State) :
    ∃ t, exec i s = .next t := by
  cases i with
  | dreq c => exact ⟨_, exec_dreq ⟨c, of_decide_eq_true hwf⟩ s⟩
  | dack c => exact ⟨_, exec_dack ⟨c, of_decide_eq_true hwf⟩ s⟩
  | dmaDone c => exact ⟨_, exec_dmaDone ⟨c, of_decide_eq_true hwf⟩ s⟩
  | ramMaintain n => exact absurd rfl (hmaintain n)
  | _ => exact ⟨_, rfl⟩

theorem exec_eq_refused_iff (i : Instr) (s : State) (r : Refusal) :
    exec i s = .refused r ↔
      (∃ n, i = .ramMaintain n ∧ r = .maintainNotInHardware) ∨
        ∃ c, 4 ≤ c ∧ r = .channelOutOfRange c ∧ (i = .dreq c ∨ i = .dack c ∨ i = .dmaDone c) := by
  constructor
  · intro h
    by_cases hmaintain : ∃ n, i = .ramMaintain n
    · obtain ⟨n, rfl⟩ := hmaintain
      exact .inl ⟨n, rfl, (Host.Outcome.refused.inj h).symm⟩
    · cases hwf : i.wellFormed with
      | true =>
        obtain ⟨t, ht⟩ := exec_answers hwf (fun n hn => hmaintain ⟨n, hn⟩) s
        rw [ht] at h
        cases h
      | false =>
        obtain ⟨c, hc, hi⟩ := channel_out_of_range_of_not_wellFormed hwf
        rw [exec_of_channel_out_of_range hc hi s] at h
        exact .inr ⟨c, hc, (Host.Outcome.refused.inj h).symm, hi⟩
  · rintro (⟨n, rfl, rfl⟩ | ⟨c, hc, rfl, hi⟩)
    · exact exec_ramMaintain n s
    · exact exec_of_channel_out_of_range hc hi s

/-- Settles O30: the type of faults is empty, and every operation but the two refused completes. -/
theorem onlyTheSpecsTwoRefusals : Obligations.OnlyTheSpecsTwoRefusals :=
  ⟨fun _ _ f => (nomatch f), exec_eq_refused_iff, fun _ s hwf hmaintain => exec_answers hwf hmaintain s⟩

end Sys2Proof.Proofs
end

section
/-! PROOFS. The arms of `CYC` in S0 (R162) and S1 (R163). -/

namespace Sys2Proof.Proofs

open Sys2Proof.Machine

theorem exec_cycS0 (now : Nat) (pages : Pages) (s : State) :
    exec (.cycS0 now pages) s = .next (s.returning .nothing) :=
  rfl

/-- Settles O33: the arm replaces the answer alone. -/
theorem cycleInS0ChangesNothing : Obligations.CycleInS0ChangesNothing := by
  intro now pages s
  exact ⟨_, exec_cycS0 now pages s, rfl, fun c => State.returning_chan s _ c, sameOutside_returning s _, rfl⟩

theorem exec_cycS2 (now : Nat) (pages : Pages) (s : State) :
    exec (.cycS2 now pages) s = .next ((actionS2 now pages s).returning .nothing) :=
  rfl

theorem exec_cycS1_of_mustDriveHigh (now : Nat) (pages : Pages) {s : State} (h : s.mustDriveHigh = true) :
    exec (.cycS1 now pages) s = .next ((s.setCtl { s.ctl with state := .s2 }).returning .nothing) := by
  have harm : exec (.cycS1 now pages) s = execCycS1 now pages s := rfl
  rw [harm, execCycS1, if_pos h, enter_of_keepsCache s rfl]

theorem exec_cycS1_of_cached (now : Nat) (pages : Pages) {s : State} (h : s.mustDriveHigh = false) :
    exec (.cycS1 now pages) s = exec (.cycS2 now pages) s := by
  have harm : exec (.cycS1 now pages) s = execCycS1 now pages s := rfl
  rw [harm, execCycS1, if_neg (Bool.eq_false_iff.mp h), exec_cycS2]

/-- The cached byte as a number (decision D16). -/
theorem highCache_toNat (r : Word16) : (highCache r).toNat = r.toNat / 256 := by
  have hr := r.isLt
  rw [highCache, BitVec.toNat_setWidth, BitVec.extractLsb'_toNat, Nat.shiftRight_eq_div_pow]
  omega

theorem highCache_eq_iff (r high : Word16) : highCache r = high ↔ r.toNat / 256 = high.toNat := by
  rw [← BitVec.toNat_inj, highCache_toNat]

theorem mustDriveHigh_eq_true_iff (s : State) :
    s.mustDriveHigh = true ↔
      s.ctl.command.getLsbD 3 = false ∨
        (s.chan s.ctl.channel).currentAddress.toNat / 256 ≠ s.ctl.highAddress.toNat := by
  rw [State.mustDriveHigh, Bool.or_eq_true, Bool.not_eq_true', bne_iff_ne, Ne, highCache_eq_iff]
  rfl

/-- Settles O34: the two cases are those of `mustDriveHigh`. -/
theorem cycleInS1AdvancesOrSkips : Obligations.CycleInS1AdvancesOrSkips := by
  intro now pages s high
  refine ⟨fun hdrive => ?_, fun hcompressed hcached => ?_⟩
  · exact ⟨_, exec_cycS1_of_mustDriveHigh now pages ((mustDriveHigh_eq_true_iff s).mpr hdrive), rfl,
      sameChannels_setCtl_returning _ _ _, sameOutside_setCtl_returning _ _ _, rfl⟩
  · apply exec_cycS1_of_cached
    rw [← Bool.not_eq_true, mustDriveHigh_eq_true_iff, hcompressed]
    rintro (h | h)
    · cases h
    · exact h hcached

end Sys2Proof.Proofs
end

section
/-! PROOFS. Whom the arbiter grants (R182, R185, R274): the scan visits all four channels in the order of their rank, so
that the first that qualifies is the one of least rank. -/

namespace Sys2Proof.Proofs

open Sys2Proof.Machine

/-- On a list in strictly rising order of a rank, the first element found is the one of least rank. -/
theorem find?_eq_some_iff_least {α : Type} {rank : α → Nat} (p : α → Bool) {l : List α}
    (hsorted : l.Pairwise fun a b => rank a < rank b) (c : α) :
    l.find? p = some c ↔ c ∈ l ∧ p c = true ∧ ∀ d ∈ l, p d = true → rank c ≤ rank d := by
  induction l with
  | nil => simp
  | cons a l ih =>
    obtain ⟨hfirst, hrest⟩ := List.pairwise_cons.mp hsorted
    cases ha : p a with
    | true =>
      rw [List.find?_cons_of_pos ha, Option.some_inj]
      constructor
      · rintro rfl
        refine ⟨List.mem_cons_self, ha, fun d hd _ => ?_⟩
        rcases List.mem_cons.mp hd with rfl | hd
        · exact Nat.le_refl _
        · exact (hfirst d hd).le
      · rintro ⟨hc, -, hleast⟩
        rcases List.mem_cons.mp hc with rfl | hc
        · rfl
        · exact absurd (hleast a List.mem_cons_self ha) (Nat.not_le.mpr (hfirst c hc))
    | false =>
      rw [List.find?_cons_of_neg (Bool.eq_false_iff.mp ha), ih hrest]
      have hne : ∀ d, p d = true → d ≠ a := fun d hd hda => by rw [hda, ha] at hd; cases hd
      constructor
      · rintro ⟨hc, hpc, hleast⟩
        refine ⟨List.mem_cons_of_mem a hc, hpc, fun d hd hpd => hleast d ?_ hpd⟩
        exact (List.mem_cons.mp hd).resolve_left (hne d hpd)
      · rintro ⟨hc, hpc, hleast⟩
        exact ⟨(List.mem_cons.mp hc).resolve_left (hne c hpc), hpc,
          fun d hd => hleast d (List.mem_cons_of_mem a hd)⟩

section Scan

variable (s : State)

theorem scanOrder_of_fixed (h : s.ctl.command.getLsbD 4 = false) : scanOrder s = [0, 1, 2, 3] := by
  have hscan : scanChannel s = fun i => Fin.ofNat 4 (i - 1) := funext fun _ => if_neg (Bool.eq_false_iff.mp h)
  rw [scanOrder, hscan]
  rfl

/-- The scan under rotating priority, from the channel after the one last serviced round to that one (conflict C2). -/
theorem scanOrder_of_rotating (h : s.ctl.command.getLsbD 4 = true) :
    scanOrder s = [1, 2, 3, 4].map fun i => Fin.ofNat 4 (i + s.ctl.channel.val) := by
  have hscan : scanChannel s = fun i => Fin.ofNat 4 (i + s.ctl.channel.val) := funext fun _ => if_pos h
  rw [scanOrder, hscan]

theorem scanRank_of_fixed (h : s.ctl.command.getLsbD 4 = false) (c : ChanId) : scanRank s c = c.val := by
  rw [scanRank, if_neg (Bool.eq_false_iff.mp h)]

theorem scanRank_of_rotating (h : s.ctl.command.getLsbD 4 = true) (c : ChanId) :
    scanRank s c = (c.val + 3 - s.ctl.channel.val) % 4 := by
  rw [scanRank, if_pos h]

theorem mem_scanOrder (c : ChanId) : c ∈ scanOrder s := by
  cases h : s.ctl.command.getLsbD 4 with
  | false =>
    rw [scanOrder_of_fixed s h]
    revert c
    decide
  | true =>
    rw [scanOrder_of_rotating s h]
    generalize s.ctl.channel = k
    revert c k
    decide

theorem scanOrder_pairwise_scanRank : (scanOrder s).Pairwise fun a b => scanRank s a < scanRank s b := by
  cases h : s.ctl.command.getLsbD 4 with
  | false =>
    simp only [scanOrder_of_fixed s h, scanRank_of_fixed s h]
    decide
  | true =>
    simp only [scanOrder_of_rotating s h, scanRank_of_rotating s h]
    generalize s.ctl.channel = k
    revert k
    decide

theorem find?_scanOrder_eq_some_iff (c : ChanId) :
    (scanOrder s).find? s.qualifies = some c ↔
      s.qualifies c = true ∧ ∀ d : ChanId, s.qualifies d = true → scanRank s c ≤ scanRank s d := by
  rw [find?_eq_some_iff_least s.qualifies (scanOrder_pairwise_scanRank s)]
  simp only [mem_scanOrder, true_and, true_implies]

end Scan

section Grant

variable {s : State} {c d : ChanId}

theorem enabled_idle_of_grant (h : arbitrate s = some c) : disabled s.ctl.command = false ∧ s.ctl.state = .idle := by
  constructor
  · by_contra hdisabled
    rw [arbitrate_of_disabled (Bool.not_eq_false _ ▸ hdisabled)] at h
    cases h
  · by_contra hidle
    rw [arbitrate_of_not_idle hidle] at h
    cases h

theorem arbitrate_eq_some_iff :
    arbitrate s = some c ↔
      disabled s.ctl.command = false ∧ s.ctl.state = .idle ∧
        ((s.memToMemSpecial = true ∧ c = 1) ∨
          (s.memToMemSpecial = false ∧ s.qualifies c = true ∧
            ∀ d : ChanId, s.qualifies d = true → scanRank s c ≤ scanRank s d)) := by
  have hselect (henabled : disabled s.ctl.command = false) (hidle : s.ctl.state = .idle) :
      arbitrate s = some c ↔
        (s.memToMemSpecial = true ∧ c = 1) ∨
          (s.memToMemSpecial = false ∧ s.qualifies c = true ∧
            ∀ d : ChanId, s.qualifies d = true → scanRank s c ≤ scanRank s d) := by
    rw [arbitrate_of_enabled_idle henabled hidle, ← find?_scanOrder_eq_some_iff]
    cases s.memToMemSpecial <;> simp [eq_comm]
  constructor
  · intro h
    obtain ⟨henabled, hidle⟩ := enabled_idle_of_grant h
    exact ⟨henabled, hidle, (hselect henabled hidle).mp h⟩
  · rintro ⟨henabled, hidle, h⟩
    exact (hselect henabled hidle).mpr h

/-- Without the special case only a channel that qualifies is granted. -/
theorem qualifies_of_grant (h : arbitrate s = some c) (hspecial : s.memToMemSpecial = false) :
    s.qualifies c = true := by
  obtain ⟨-, -, ⟨htrue, -⟩ | ⟨-, hqualifies, -⟩⟩ := arbitrate_eq_some_iff.mp h
  · rw [hspecial] at htrue
    cases htrue
  · exact hqualifies

theorem scanRank_le_of_grant (h : arbitrate s = some c) (hspecial : s.memToMemSpecial = false)
    (hd : s.qualifies d = true) : scanRank s c ≤ scanRank s d := by
  obtain ⟨-, -, ⟨htrue, -⟩ | ⟨-, -, hleast⟩⟩ := arbitrate_eq_some_iff.mp h
  · rw [hspecial] at htrue
    cases htrue
  · exact hleast d hd

/-- Enabled and Idle, a channel that qualifies makes the arbiter grant some channel. -/
theorem exists_grant_of_qualifies (henabled : disabled s.ctl.command = false) (hidle : s.ctl.state = .idle)
    (hd : s.qualifies d = true) : ∃ e, arbitrate s = some e := by
  rw [arbitrate_of_enabled_idle henabled hidle]
  split
  · exact ⟨1, rfl⟩
  · exact Option.isSome_iff_exists.mp (List.find?_isSome.mpr ⟨d, mem_scanOrder s d, hd⟩)

theorem memToMemSpecial_of_memToMem_false (h : memToMem s.ctl.command = false) : s.memToMemSpecial = false := by
  rw [← Bool.not_eq_true, memToMemSpecial_iff, h]
  rintro ⟨-, h, -⟩
  cases h

theorem qualifies_of_memToMem_false (h : memToMem s.ctl.command = false) (c : ChanId) :
    s.qualifies c = ((s.chan c).request && !(s.chan c).terminalCount) := by
  rw [qualifies_eq, h, if_neg (fun hc => Bool.false_ne_true hc.2)]

end Grant

/-- Settles O47: the scan's first find is the least rank (`find?_scanOrder_eq_some_iff`). -/
theorem arbiterGrantsTheLeastRank : Obligations.ArbiterGrantsTheLeastRank := fun _ _ => arbitrate_eq_some_iff

/-- The channel last serviced ranks last under rotating priority (conflict C2). -/
theorem scanRank_lt_of_ne_channel {s : State} (h : s.ctl.command.getLsbD 4 = true) {d : ChanId}
    (hd : d ≠ s.ctl.channel) : scanRank s d < scanRank s s.ctl.channel := by
  have hne : d.val ≠ s.ctl.channel.val := mt Fin.ext hd
  rw [scanRank_of_rotating s h, scanRank_of_rotating s h]
  omega

/-- Settles O48: the rank of the channel last serviced is above every other, so a grant goes to another that
qualifies. -/
theorem rotatingPriorityAlternates : Obligations.RotatingPriorityAlternates := by
  intro s d henabled hrotating hm2m hidle hd hqualifies
  have hspecial := memToMemSpecial_of_memToMem_false hm2m
  have hother : arbitrate s ≠ some s.ctl.channel := fun hgrant =>
    Nat.not_lt.mpr (scanRank_le_of_grant hgrant hspecial hqualifies) (scanRank_lt_of_ne_channel hrotating hd)
  obtain ⟨e, he⟩ := exists_grant_of_qualifies henabled hidle hqualifies
  refine ⟨hother, ⟨e, he⟩, fun honly => ?_⟩
  obtain rfl | rfl := honly e (qualifies_of_grant he hspecial)
  · exact absurd he hother
  · exact he

/-- A request of a masked channel is soft or internal (R24). -/
theorem request_of_masked {x : Channel} (hmask : x.mask = true) (hsoft : x.softRequest = false)
    (hinternal : x.internalRequest = false) : x.request = false := by
  rw [Channel.request, hmask, hsoft, hinternal, Bool.not_true, Bool.and_false]
  rfl

theorem qualifies_iff {s : State} {c : ChanId} :
    s.qualifies c = true ↔
      (s.chan c).request = true ∧
        ((c = 0 ∧ memToMem s.ctl.command = true ∧ (s.chan 1).terminalCount = false) ∨
          (¬ (c = 0 ∧ memToMem s.ctl.command = true) ∧ (s.chan c).terminalCount = false)) := by
  rw [qualifies_eq]
  by_cases h : c = 0 ∧ memToMem s.ctl.command = true
  · obtain ⟨rfl, hm2m⟩ := h
    simp [hm2m]
  · rw [if_neg h, Bool.and_eq_true, Bool.not_eq_true']
    simp [h, ← and_assoc]

/-- Settles O49: the special case grants channel 1, the scan a channel that qualifies, and to qualify is to request. -/
theorem arbiterNeverGrantsAMaskedHardRequest : Obligations.ArbiterNeverGrantsAMaskedHardRequest := by
  intro s c hgrant
  obtain ⟨-, -, ⟨hspecial, rfl⟩ | ⟨-, hqualifies, -⟩⟩ := arbitrate_eq_some_iff.mp hgrant
  · obtain ⟨hchannel, hm2m, hrequest, hlatch⟩ := memToMemSpecial_iff.mp hspecial
    exact ⟨.inr (.inr ⟨rfl, hchannel, hm2m, hrequest, hlatch⟩), fun _ _ _ => ⟨rfl, hspecial⟩⟩
  · obtain ⟨hrequest, hlatch⟩ := qualifies_iff.mp hqualifies
    refine ⟨?_, fun hmask hsoft hinternal => ?_⟩
    · obtain ⟨rfl, hm2m, hlatch⟩ | ⟨-, hlatch⟩ := hlatch
      · exact .inr (.inl ⟨rfl, hm2m, hrequest, hlatch⟩)
      · exact .inl ⟨hrequest, hlatch⟩
    · rw [request_of_masked hmask hsoft hinternal] at hrequest
      cases hrequest

end Sys2Proof.Proofs
end

section
/-! PROOFS. Master clear (R202): with command 0x00 and every mask set, the arbitration that ends it scans the channels
in their order for an internal request, the one source that clearing leaves. -/

namespace Sys2Proof.Proofs

open Sys2Proof.Machine

theorem masterCleared_chan (s : State) (c : ChanId) : (masterCleared s).chan c = (s.chan c).clear :=
  chan_mapIdx s (fun _ x => x.clear) c

theorem masterCleared_command_bit (s : State) (n : Nat) : (masterCleared s).ctl.command.getLsbD n = false :=
  BitVec.getLsbD_zero

theorem request_clear (x : Channel) : x.clear.request = x.internalRequest := by
  simp [Channel.request, Channel.clear]

theorem memToMemSpecial_masterCleared (s : State) : (masterCleared s).memToMemSpecial = false :=
  memToMemSpecial_of_memToMem_false (masterCleared_command_bit s 0)

theorem qualifies_masterCleared (s : State) (c : ChanId) :
    (masterCleared s).qualifies c = (s.chan c).internalRequest := by
  rw [qualifies_of_memToMem_false (masterCleared_command_bit s 0), masterCleared_chan, request_clear]
  exact Bool.and_true _

theorem arbitrate_masterCleared_none {s : State} (h : ∀ c, (s.chan c).internalRequest = false) :
    arbitrate (masterCleared s) = none := by
  by_contra hgrant
  obtain ⟨c, hc⟩ := Option.ne_none_iff_exists'.mp hgrant
  have hinternal := qualifies_of_grant hc (memToMemSpecial_masterCleared s)
  rw [qualifies_masterCleared, h c] at hinternal
  cases hinternal

theorem arbitrate_masterCleared_some {s : State} {c : ChanId} (hc : (s.chan c).internalRequest = true)
    (hlower : ∀ d, d < c → (s.chan d).internalRequest = false) : arbitrate (masterCleared s) = some c := by
  refine arbitrate_eq_some_iff.mpr ⟨masterCleared_command_bit s 2, rfl,
    .inr ⟨memToMemSpecial_masterCleared s, ?_, fun d hd => ?_⟩⟩
  · rw [qualifies_masterCleared, hc]
  · rw [qualifies_masterCleared] at hd
    rw [scanRank_of_fixed _ (masterCleared_command_bit s 4), scanRank_of_fixed _ (masterCleared_command_bit s 4)]
    by_contra hlt
    rw [hlower d (Nat.lt_of_not_le hlt)] at hd
    cases hd

theorem exec_wrMclr (v : Byte) (s : State) :
    exec (.wrMclr v) s = .next ((checkForDMA (masterCleared s)).returning .nothing) :=
  rfl

/-- Settles O23: the channels and the controller of `masterCleared`, and the arbitration in its two cases. -/
theorem masterClearClearsThenArbitrates : Obligations.MasterClearClearsThenArbitrates := by
  intro v s
  refine ⟨_, exec_wrMclr v s, fun c => ?_, ?_, rfl, fun hnone => ?_, fun c hc hlower => ?_⟩
  · exact (checkForDMA_chan _ c).trans (masterCleared_chan s c)
  · exact sameOutside_checkForDMA_set_returning s _ _ _
  · rw [checkForDMA_of_none (arbitrate_masterCleared_none hnone)]
    rfl
  · rw [checkForDMA_of_some (arbitrate_masterCleared_some hc hlower)]
    rfl

end Sys2Proof.Proofs
end

section
/-! PROOFS. The RAM through the bus (R87, R253, R254), and the two properties of its decay (R258, R260): what a read
returns after a write, and what DECAYED? reports after a read. -/

namespace Sys2Proof.Proofs

open Sys2Proof.Machine

/-- The byte a read returns, as one case on the deadline and the size (R253). -/
theorem readValue_eq (r : Ram) (tick a : Nat) :
    r.readValue tick a =
      if tick < r.deadlineAt (a % 2 ^ r.rowBits) ∧ a < r.size then r.byteAt a else r.decayValue := by
  by_cases hlive : tick < r.deadlineAt (a % 2 ^ r.rowBits)
  · rw [readValue_of_not_decayed (not_decayed_of_lt_deadline hlive)]
    by_cases hrange : a < r.size
    · rw [if_neg (Nat.not_le.mpr hrange), if_pos ⟨hlive, hrange⟩]
    · rw [if_pos (Nat.not_lt.mp hrange), if_neg fun h => hrange h.2]
  · rw [readValue_of_decayed (decayed_of_deadline_le (Nat.not_lt.mp hlive)), if_neg fun h => hlive h.1]

theorem afterRead_deadlineAt_mod (r : Ram) (tick a row : Nat) :
    (r.afterRead tick a).deadlineAt row =
      if tick < r.deadlineAt (a % 2 ^ r.rowBits) ∧ row = a % 2 ^ r.rowBits then tick + r.decayTicks
      else r.deadlineAt row := by
  rw [Ram.afterRead_deadlineAt, Ram.rowOf_eq_mod]

theorem afterWrite_deadlineAt_mod (r : Ram) (tick a : Nat) (b : Byte) (row : Nat) :
    (r.afterWrite tick a b).deadlineAt row =
      if row = a % 2 ^ r.rowBits then tick + r.decayTicks else r.deadlineAt row := by
  rw [Ram.afterWrite_deadlineAt, Ram.rowOf_eq_mod]

theorem afterWrite_byteAt_same {r : Ram} {a : Nat} (tick : Nat) (b : Byte) (h : a < r.size) :
    (r.afterWrite tick a b).byteAt a = b := by
  rw [Ram.afterWrite_byteAt, if_pos ⟨h, rfl⟩]

theorem afterWrite_byteAt_other {r : Ram} {a y : Nat} (tick : Nat) (b : Byte) (h : y ≠ a ∨ r.size ≤ y) :
    (r.afterWrite tick a b).byteAt y = r.byteAt y := by
  rw [Ram.afterWrite_byteAt, if_neg]
  rintro ⟨hrange, rfl⟩
  exact h.elim (fun hne => hne rfl) (Nat.not_le.mpr hrange)

/-! The two operations of the host (R87). -/

theorem exec_mrd (now : Nat) (a : BusAddr) (s : State) :
    exec (.mrd now a) s =
      .next ((busRead now (busSetAddress a s)).returning (.byte (s.ram.readValue now a.toNat))) :=
  rfl

theorem exec_mwr (now : Nat) (a : BusAddr) (b : Byte) (s : State) :
    exec (.mwr now a b) s = .next ((busWriteByte now b (busSetAddress a s)).returning .nothing) :=
  rfl

theorem sameConfiguration_afterRead {s t : State} {now a : Nat} (hram : t.ram = s.ram.afterRead now a)
    (htemp : t.tempClearOnRead = s.tempClearOnRead) : SameConfiguration s t := by
  rw [SameConfiguration, hram]
  exact ⟨Ram.afterRead_size _ _ _, Ram.afterRead_rowBits _ _ _, Ram.afterRead_decayTicks _ _ _,
    Ram.afterRead_decayValue _ _ _, htemp⟩

theorem sameConfiguration_afterWrite {s t : State} {now a : Nat} {b : Byte} (hram : t.ram = s.ram.afterWrite now a b)
    (htemp : t.tempClearOnRead = s.tempClearOnRead) : SameConfiguration s t := by
  rw [SameConfiguration, hram]
  exact ⟨Ram.afterWrite_size _ _ _ _, Ram.afterWrite_rowBits _ _ _ _, Ram.afterWrite_decayTicks _ _ _ _,
    Ram.afterWrite_decayValue _ _ _ _, htemp⟩

/-- Settles O50: a read of the RAM at the operand, latched. -/
theorem hostReadGoesThroughTheBus : Obligations.HostReadGoesThroughTheBus := by
  intro now a s
  refine ⟨_, exec_mrd now a s, ?_, ?_, rfl, fun _ => rfl, Ram.afterRead_byteAt s.ram now a.toNat,
    afterRead_deadlineAt_mod s.ram now a.toNat, sameConfiguration_afterRead (a := a.toNat) rfl rfl, ⟨rfl, rfl⟩⟩
  · exact congrArg Returned.byte (readValue_eq s.ram now a.toNat)
  · exact congrArg (Bus.mk a) (readValue_eq s.ram now a.toNat)

/-- Settles O51: a write of the RAM at the operand, latched. -/
theorem hostWriteGoesThroughTheBus : Obligations.HostWriteGoesThroughTheBus := by
  intro now a b s
  exact ⟨_, exec_mwr now a b s, rfl, rfl, rfl, fun _ => rfl, fun hrange => afterWrite_byteAt_same now b hrange,
    fun _ hy => afterWrite_byteAt_other now b hy, afterWrite_deadlineAt_mod s.ram now a.toNat b,
    sameConfiguration_afterWrite (a := a.toNat) (b := b) rfl rfl, ⟨rfl, rfl⟩⟩

/-! Reading a row after it was written. -/

section AfterWrite

variable {r : Ram} {now later x y : Nat} {b : Byte}

theorem deadlineAt_afterWrite_row (hrow : x % 2 ^ r.rowBits = y % 2 ^ r.rowBits) :
    (r.afterWrite now y b).deadlineAt (x % 2 ^ (r.afterWrite now y b).rowBits) = now + r.decayTicks := by
  rw [Ram.afterWrite_rowBits, afterWrite_deadlineAt_mod, if_pos hrow]

/-- Before the new deadline an address in range of the row reads as the byte it holds. -/
theorem readValue_afterWrite_of_lt (hrow : x % 2 ^ r.rowBits = y % 2 ^ r.rowBits) (hrange : x < r.size)
    (hlater : later < now + r.decayTicks) :
    (r.afterWrite now y b).readValue later x = (r.afterWrite now y b).byteAt x := by
  rw [readValue_eq, deadlineAt_afterWrite_row hrow, Ram.afterWrite_size, if_pos ⟨hlater, hrange⟩]

/-- From the new deadline on every address of the row reads as the decay value. -/
theorem readValue_afterWrite_of_le (hrow : x % 2 ^ r.rowBits = y % 2 ^ r.rowBits)
    (hlater : now + r.decayTicks ≤ later) : (r.afterWrite now y b).readValue later x = r.decayValue := by
  rw [readValue_eq, deadlineAt_afterWrite_row hrow, if_neg fun h => Nat.not_lt.mpr hlater h.1,
    Ram.afterWrite_decayValue]

end AfterWrite

/-- After a read of a live row, DECAYED? compares with the postponed deadline. -/
theorem decayed_afterRead_of_live {r : Ram} {now a : Nat} (later : Nat)
    (hlive : now < r.deadlineAt (a % 2 ^ r.rowBits)) :
    (r.afterRead now a).decayed later a = decide (now + r.decayTicks ≤ later) := by
  rw [decayed_eq_decide, Ram.afterRead_rowBits, afterRead_deadlineAt_mod, if_pos ⟨hlive, rfl⟩]

/-- Settles O54: a read against the deadline that a write, or a read of a live row, has set. -/
theorem ramRoundTripAndRefreshByReading : Obligations.RamRoundTripAndRefreshByReading := by
  refine ⟨fun s a b now later hrange => ?_, fun s a now later hlive => ?_⟩
  · refine ⟨_, _, exec_mwr now a b s, exec_mrd later a _, fun hlater => ?_, fun hlater => ?_⟩
    · refine congrArg Returned.byte ((readValue_afterWrite_of_lt rfl hrange hlater).trans ?_)
      exact afterWrite_byteAt_same now b hrange
    · exact congrArg Returned.byte (readValue_afterWrite_of_le rfl hlater)
  · exact ⟨_, _, exec_mrd now a s, exec_ramDecayed later a.toNat _,
      congrArg Returned.flag (decayed_afterRead_of_live later hlive)⟩

/-- Settles O55: the write moves the deadline of the row, and the byte at another address stays. -/
theorem aWriteRevivesTheWholeRow : Obligations.AWriteRevivesTheWholeRow := by
  intro s x y b now later hne hrow hrange hlater
  refine ⟨_, _, exec_mwr now y b s, exec_mrd later x _, congrArg Returned.byte ?_⟩
  refine (readValue_afterWrite_of_lt hrow hrange hlater).trans (afterWrite_byteAt_other now b (.inl ?_))
  exact mt BitVec.eq_of_toNat_eq hne

end Sys2Proof.Proofs
end

section
/-! PROOFS. Terminal count (R142 a): the count falls by one with each update until it is 0, and the next update is the
underflow. -/

namespace Sys2Proof.Proofs

open Sys2Proof.Machine

/-- `y` is `x` after `n` updates that did not underflow, its address aside. -/
def CountedDown (x : Channel) (n : Nat) (y : Channel) : Prop :=
  y = { x with currentAddress := y.currentAddress, currentCount := y.currentCount } ∧
    y.currentCount.toNat + n = x.currentCount.toNat

theorem countedDown_update {x y : Channel} {n : Nat} (h : CountedDown x n y) (hn : n < x.currentCount.toNat) :
    CountedDown x (n + 1) (y.update false) := by
  obtain ⟨hframe, hcount⟩ := h
  have hne : y.currentCount ≠ 0x0000#16 := by
    rintro h0
    rw [h0, BitVec.toNat_ofNat] at hcount
    omega
  rw [update_of_count_ne_zero false hne]
  refine ⟨by rw [hframe], ?_⟩
  have hstep := toNat_sub_one_of_ne_zero hne
  have hpos : y.currentCount.toNat ≠ 0 := by omega
  simp only [hstep]
  omega

theorem countedDown_iterate (x : Channel) {n : Nat} (hn : n ≤ x.currentCount.toNat) :
    CountedDown x n ((fun c : Channel => c.update false)^[n] x) := by
  induction n with
  | zero => exact ⟨rfl, rfl⟩
  | succ n ih =>
    rw [Function.iterate_succ_apply']
    exact countedDown_update (ih (Nat.le_of_succ_le hn)) hn

/-- After as many updates as the count says, the count is 0. -/
theorem currentCount_of_countedDown {x y : Channel} (h : CountedDown x x.currentCount.toNat y) :
    y.currentCount = 0x0000#16 :=
  BitVec.eq_of_toNat_eq (Nat.add_eq_right.mp h.2)

/-- Under auto-initialization an update never latches terminal count (R142). -/
theorem update_of_auto {x : Channel} (hold : Bool) (hauto : x.autoInitialization = true) :
    (x.update hold).terminalCount = x.terminalCount ∧ (x.update hold).autoInitialization = true := by
  by_cases h : x.currentCount = 0x0000#16
  · rw [update_of_reload hold h hauto]
    exact ⟨rfl, hauto⟩
  · rw [update_of_count_ne_zero hold h]
    exact ⟨rfl, hauto⟩

theorem terminalCount_iterate_of_auto {x : Channel} (hauto : x.autoInitialization = true) (n : Nat) :
    ((fun c : Channel => c.update false)^[n] x).terminalCount = x.terminalCount := by
  induction n generalizing x with
  | zero => rfl
  | succ n ih =>
    obtain ⟨hlatch, hauto'⟩ := update_of_auto false hauto
    rw [Function.iterate_succ_apply, ih hauto', hlatch]

/-- Settles O58: the count falls to 0, and the update that follows underflows. -/
theorem terminalCountAfterCountPlusOneUpdates : Obligations.TerminalCountAfterCountPlusOneUpdates := by
  intro x hlatch after
  have hdown {n : Nat} (hn : n ≤ x.currentCount.toNat) : CountedDown x n (after n) := countedDown_iterate x hn
  have hlast : after (x.currentCount.toNat + 1) = (after x.currentCount.toNat).update false :=
    Function.iterate_succ_apply' _ _ _
  have hzero := currentCount_of_countedDown (hdown (Nat.le_refl _))
  obtain ⟨hframe, -⟩ := hdown (Nat.le_refl _)
  refine ⟨fun hauto => ⟨fun n hn => ?_, ?_⟩, fun hauto => ⟨fun n => ?_, ?_⟩⟩
  · obtain ⟨hn, -⟩ := hdown hn
    rw [hn, ← hlatch]
  · have hmode : (after x.currentCount.toNat).autoInitialization = false := by rw [hframe]; exact hauto
    rw [hlast, update_of_terminalCount false hzero hmode]
    exact ⟨rfl, rfl⟩
  · exact (terminalCount_iterate_of_auto hauto n).trans hlatch
  · have hmode : (after x.currentCount.toNat).autoInitialization = true := by rw [hframe]; exact hauto
    rw [hlast, update_of_reload false hzero hmode, hframe]
    exact ⟨rfl, rfl⟩

end Sys2Proof.Proofs
end

section
/-! PROOFS. The S2 action (R164): one equation for the RAM, the bus and the model's own fields each, beside those of the
channels and the controller (Laws/Ops). -/

namespace Sys2Proof.Proofs

open Sys2Proof.Machine

/-- The model's own fields, but for what the operation returned, are as before. -/
def SameOwnFields (s t : State) : Prop := SameEnvironment s t ∧ t.tempClearOnRead = s.tempClearOnRead

theorem sameOwnFields_trans {s t u : State} (hst : SameOwnFields s t) (htu : SameOwnFields t u) :
    SameOwnFields s u := by
  obtain ⟨⟨hinputs, hdraws⟩, htemp⟩ := hst
  obtain ⟨⟨kinputs, kdraws⟩, ktemp⟩ := htu
  exact ⟨⟨kinputs.trans hinputs, kdraws.trans hdraws⟩, ktemp.trans htemp⟩

/-- The byte that a Write transfer stores (R164). -/
def storedByte (s : State) : Byte :=
  if s.ctl.channel = 1 ∧ s.ctl.command.getLsbD 0 = true then s.ctl.temporary else s.bus.data

/-- The address that the channel in service drives (R72). -/
def drivenAddress (pages : Pages) (s : State) : BusAddr :=
  driveAddress (s.chan s.ctl.channel).currentAddress (pages.get s.ctl.channel)

theorem s2Write_eq (now : Nat) (s : State) : s2Write now s = busWriteByte now (storedByte s) s := by
  have hcond : (s.ctl.channel == 1 && memToMem s.ctl.command) = true ↔
      s.ctl.channel = 1 ∧ s.ctl.command.getLsbD 0 = true := by
    rw [Bool.and_eq_true, beq_iff_eq, memToMem]
  by_cases h : s.ctl.channel = 1 ∧ s.ctl.command.getLsbD 0 = true
  · rw [s2Write, if_pos (hcond.mpr h), storedByte, if_pos h]
  · rw [s2Write, if_neg (mt hcond.mp h), storedByte, if_neg h]
    rfl

theorem writesBus_iff (x : Channel) :
    x.writesBus = true ↔ x.transferMode ≠ .cascade ∧ x.transferType = .write := by
  rw [Channel.writesBus, Bool.and_eq_true, bne_iff_ne, beq_iff_eq]

theorem readsBus_iff (x : Channel) : x.readsBus = true ↔ x.transferType = .read ∧ x.transferMode ≠ .cascade := by
  rw [Channel.readsBus, Bool.and_eq_true, bne_iff_ne, beq_iff_eq, and_comm]

section ActionS2

variable (now : Nat) (pages : Pages) {s : State}

theorem actionS2_of_cascade (h : (s.chan s.ctl.channel).transferMode = .cascade) :
    actionS2 now pages s = enter .s3 (s.setCtl { s.ctl with dAck := true }) := by
  obtain ⟨-, heq⟩ | ⟨hmode, -⟩ | ⟨hmode, -⟩ := actionS2_cases now pages s
  · exact heq
  · exact absurd h hmode
  · exact absurd h hmode

theorem actionS2_of_no_store (hmode : (s.chan s.ctl.channel).transferMode ≠ .cascade)
    (htype : (s.chan s.ctl.channel).transferType ≠ .write) :
    actionS2 now pages s = enter .s3 (s2Drive pages (s.setCtl { s.ctl with dAck := true })) := by
  obtain ⟨h, -⟩ | ⟨-, -, heq⟩ | ⟨-, h, -⟩ := actionS2_cases now pages s
  · exact absurd h hmode
  · exact heq
  · exact absurd h htype

theorem actionS2_of_store (hmode : (s.chan s.ctl.channel).transferMode ≠ .cascade)
    (htype : (s.chan s.ctl.channel).transferType = .write) :
    actionS2 now pages s =
      enter .s3 (busWriteByte now (storedByte s) (s2Drive pages (s.setCtl { s.ctl with dAck := true }))) := by
  obtain ⟨h, -⟩ | ⟨-, h, -⟩ | ⟨-, -, heq⟩ := actionS2_cases now pages s
  · exact absurd h hmode
  · exact absurd htype h
  · rw [heq, s2Write_eq]
    rfl

/-- The RAM after the S2 action: a Write transfer stores at the address driven (R164, R254). -/
theorem actionS2_ram :
    (actionS2 now pages s).ram =
      if (s.chan s.ctl.channel).writesBus = true then
        s.ram.afterWrite now (drivenAddress pages s).toNat (storedByte s)
      else s.ram := by
  by_cases hmode : (s.chan s.ctl.channel).transferMode = .cascade
  · rw [actionS2_of_cascade now pages hmode, if_neg fun h => ((writesBus_iff _).mp h).1 hmode]
    rfl
  · by_cases htype : (s.chan s.ctl.channel).transferType = .write
    · rw [actionS2_of_store now pages hmode htype, if_pos ((writesBus_iff _).mpr ⟨hmode, htype⟩)]
      rfl
    · rw [actionS2_of_no_store now pages hmode htype, if_neg fun h => htype ((writesBus_iff _).mp h).2]
      rfl

theorem actionS2_ownFields : SameOwnFields s (actionS2 now pages s) := by
  by_cases hmode : (s.chan s.ctl.channel).transferMode = .cascade
  · rw [actionS2_of_cascade now pages hmode]
    exact ⟨⟨rfl, rfl⟩, rfl⟩
  · by_cases htype : (s.chan s.ctl.channel).transferType = .write
    · rw [actionS2_of_store now pages hmode htype]
      exact ⟨⟨rfl, rfl⟩, rfl⟩
    · rw [actionS2_of_no_store now pages hmode htype]
      exact ⟨⟨rfl, rfl⟩, rfl⟩

end ActionS2

theorem highCache_eq_ofNat (r : Word16) : highCache r = BitVec.ofNat 16 (r.toNat / 256) := by
  rw [highCache_eq_iff, BitVec.toNat_ofNat]
  have hr := r.isLt
  omega

/-- The controller after the S2 action, with the cached byte as a number (decision D16). -/
theorem actionS2_ctl_eq (now : Nat) (pages : Pages) (s : State) :
    (actionS2 now pages s).ctl =
      { s.ctl with
        dAck := true, state := .s3
        highAddress :=
          if (s.chan s.ctl.channel).transferMode = .cascade then s.ctl.highAddress
          else BitVec.ofNat 16 ((s.chan s.ctl.channel).currentAddress.toNat / 256) } := by
  rw [actionS2_ctl, highCache_eq_ofNat]

/-- Settles O35: Cascade drives nothing; any other transfer that does not store drives the address alone. -/
theorem cycleInS2WithoutAStore : Obligations.CycleInS2WithoutAStore := by
  intro now pages s x hnostore
  obtain ⟨henv, htemp⟩ := actionS2_ownFields now pages (s := s)
  have hram : (actionS2 now pages s).ram = s.ram := by
    rw [actionS2_ram, if_neg]
    intro hwrites
    obtain ⟨hmode, htype⟩ := (writesBus_iff _).mp hwrites
    exact hnostore.elim hmode fun h => h htype
  refine ⟨_, exec_cycS2 now pages s, actionS2_ctl_eq now pages s, ?_, actionS2_chan now pages s,
    sameRam_of_eq hram htemp, henv, rfl⟩
  by_cases hmode : x.transferMode = .cascade
  · rw [if_pos hmode, actionS2_of_cascade now pages hmode]
    rfl
  · rw [if_neg hmode, actionS2_of_no_store now pages hmode (hnostore.resolve_left hmode)]
    rfl

/-- Settles O36: the store is that of the RAM at the address driven. -/
theorem cycleInS2StoresAByte : Obligations.CycleInS2StoresAByte := by
  intro now pages s x a b hmode htype
  obtain ⟨henv, htemp⟩ := actionS2_ownFields now pages (s := s)
  have hram : (actionS2 now pages s).ram = s.ram.afterWrite now a.toNat b := by
    rw [actionS2_ram, if_pos ((writesBus_iff x).mpr ⟨hmode, htype⟩)]
    rfl
  have hctl := actionS2_ctl_eq now pages s
  rw [if_neg hmode] at hctl
  refine ⟨_, exec_cycS2 now pages s, hctl, rfl, ?_, ?_, ?_, ?_, sameConfiguration_afterWrite hram htemp,
    actionS2_chan now pages s, henv, rfl⟩
  · rw [actionS2_of_store now pages hmode htype]
    rfl
  · intro hrange
    rw [State.returning_ram, hram, afterWrite_byteAt_same now b hrange]
  · intro y hy
    rw [State.returning_ram, hram, afterWrite_byteAt_other now b hy]
  · intro row
    rw [State.returning_ram, hram, afterWrite_deadlineAt_mod]

end Sys2Proof.Proofs
end

section
/-! PROOFS. The S4 action (R166) as its four phases: the fetch, the end of the transfer, what goes on, the
arbitration. -/

namespace Sys2Proof.Proofs

open Sys2Proof.Machine

/-! Channels that differ in the internal request alone. -/

section SameButInternal

variable {x y z : Channel}

theorem sameButInternal_refl (x : Channel) : SameButInternal x x := rfl

theorem sameButInternal_setInternal (x : Channel) (b : Bool) : SameButInternal x (x.setInternal b) := rfl

theorem sameButInternal_iff : SameButInternal x y ↔ ∃ b, y = x.setInternal b :=
  ⟨fun h => ⟨y.internalRequest, h⟩, by rintro ⟨b, rfl⟩; exact sameButInternal_setInternal x b⟩

theorem sameButInternal_trans (hxy : SameButInternal x y) (hyz : SameButInternal y z) : SameButInternal x z := by
  obtain ⟨b, rfl⟩ := sameButInternal_iff.mp hxy
  obtain ⟨b', rfl⟩ := sameButInternal_iff.mp hyz
  exact sameButInternal_setInternal x b'

/-- An update neither reads nor writes the internal request (R142). -/
theorem update_setInternal (x : Channel) (b hold : Bool) :
    (x.setInternal b).update hold = (x.update hold).setInternal b := by
  have hunderflow : (x.setInternal b).underflow = x.underflow := rfl
  have hauto : (x.setInternal b).autoInitialization = x.autoInitialization := rfl
  rw [Channel.update, Channel.update, hunderflow, hauto]
  split
  · split <;> rfl
  · rfl

theorem sameButInternal_update (h : SameButInternal x y) (hold : Bool) :
    SameButInternal (x.update hold) (y.update hold) := by
  obtain ⟨b, rfl⟩ := sameButInternal_iff.mp h
  rw [update_setInternal]
  exact sameButInternal_setInternal _ b

theorem transferMode_of_sameButInternal (h : SameButInternal x y) : y.transferMode = x.transferMode := by
  obtain ⟨b, rfl⟩ := sameButInternal_iff.mp h
  rfl

theorem terminalCount_of_sameButInternal (h : SameButInternal x y) : y.terminalCount = x.terminalCount := by
  obtain ⟨b, rfl⟩ := sameButInternal_iff.mp h
  rfl

theorem transferMode_update (x : Channel) (hold : Bool) : (x.update hold).transferMode = x.transferMode := by
  rw [update_frame]
  rfl

end SameButInternal

/-! The fetch. -/

section Fetch

variable (now : Nat) (s : State)

/-- The transfer is a read by channel 0 under memory-to-memory. -/
def FetchesForPartner (s : State) : Prop :=
  (s.chan s.ctl.channel).readsBus = true ∧ s.ctl.channel = 0 ∧ s.ctl.command.getLsbD 0 = true

theorem s4Fetch_of_no_read (h : ¬ (s.chan s.ctl.channel).readsBus = true) : s4Fetch now s = s := by
  rw [s4Fetch, if_neg h]

theorem s4Fetch_of_partner (h : FetchesForPartner s) :
    s4Fetch now s =
      ((busRead now s).setCtl { s.ctl with temporary := busReadValue now s }).modChan 1 (Channel.setInternal true) := by
  obtain ⟨hreads, hchannel, hm2m⟩ := h
  have hcond : (s.ctl.channel == 0 && memToMem s.ctl.command) = true := by
    rw [Bool.and_eq_true, beq_iff_eq]
    exact ⟨hchannel, hm2m⟩
  rw [s4Fetch, if_pos hreads, if_pos hcond]

theorem s4Fetch_of_alone (hreads : (s.chan s.ctl.channel).readsBus = true)
    (h : ¬ (s.ctl.channel = 0 ∧ s.ctl.command.getLsbD 0 = true)) : s4Fetch now s = busRead now s := by
  have hcond : ¬ (s.ctl.channel == 0 && memToMem s.ctl.command) = true := by
    rw [Bool.and_eq_true, beq_iff_eq]
    exact h
  rw [s4Fetch, if_pos hreads, if_neg hcond]

/-- The three cases of the fetch, for what a case split proves of each. -/
theorem s4Fetch_induction {P : State → Prop} (hnone : ¬ (s.chan s.ctl.channel).readsBus = true → P s)
    (hpartner : FetchesForPartner s →
      P (((busRead now s).setCtl { s.ctl with temporary := busReadValue now s }).modChan 1 (Channel.setInternal true)))
    (halone : (s.chan s.ctl.channel).readsBus = true → ¬ (s.ctl.channel = 0 ∧ s.ctl.command.getLsbD 0 = true) →
      P (busRead now s)) : P (s4Fetch now s) := by
  by_cases hreads : (s.chan s.ctl.channel).readsBus = true
  · by_cases hm2m : s.ctl.channel = 0 ∧ s.ctl.command.getLsbD 0 = true
    · have h : FetchesForPartner s := ⟨hreads, hm2m⟩
      rw [s4Fetch_of_partner now s h]
      exact hpartner h
    · rw [s4Fetch_of_alone now s hreads hm2m]
      exact halone hreads hm2m
  · rw [s4Fetch_of_no_read now s hreads]
    exact hnone hreads

theorem s4Fetch_ownFields : SameOwnFields s (s4Fetch now s) :=
  s4Fetch_induction now s (fun _ => ⟨⟨rfl, rfl⟩, rfl⟩) (fun _ => ⟨⟨rfl, rfl⟩, rfl⟩) fun _ _ => ⟨⟨rfl, rfl⟩, rfl⟩

theorem s4Fetch_bus :
    (s4Fetch now s).bus =
      if (s.chan s.ctl.channel).readsBus = true then { s.bus with data := busReadValue now s } else s.bus := by
  refine s4Fetch_induction now s
    (P := fun t => t.bus =
      if (s.chan s.ctl.channel).readsBus = true then { s.bus with data := busReadValue now s } else s.bus)
    (fun h => ?_) (fun ⟨h, _⟩ => ?_) fun h _ => ?_
  · rw [if_neg h]
  · rw [if_pos h]
    rfl
  · rw [if_pos h]
    rfl

theorem s4Fetch_temporary_of_no_read (h : ¬ (s.chan s.ctl.channel).readsBus = true) :
    (s4Fetch now s).ctl.temporary = s.ctl.temporary := by
  rw [s4Fetch_of_no_read now s h]

theorem s4Fetch_temporary_of_read (h : (s.chan s.ctl.channel).readsBus = true) :
    (s4Fetch now s).ctl.temporary =
      if s.ctl.channel = 0 ∧ s.ctl.command.getLsbD 0 = true then (s4Fetch now s).bus.data else s.ctl.temporary := by
  by_cases hm2m : s.ctl.channel = 0 ∧ s.ctl.command.getLsbD 0 = true
  · rw [if_pos hm2m, s4Fetch_of_partner now s ⟨h, hm2m⟩]
    rfl
  · rw [if_neg hm2m, s4Fetch_of_alone now s h hm2m]
    rfl

theorem s4Fetch_internalRequest_iff (d : ChanId) :
    ((s4Fetch now s).chan d).internalRequest = true ↔
      (s.chan d).internalRequest = true ∨ (FetchesForPartner s ∧ d = 1) := by
  refine s4Fetch_induction now s
    (P := fun t => (t.chan d).internalRequest = true ↔
      (s.chan d).internalRequest = true ∨ (FetchesForPartner s ∧ d = 1))
    (fun h => ?_) (fun h => ?_) fun _ h => ?_
  · have hnot : ¬ FetchesForPartner s := fun hp => h hp.1
    simp [hnot]
  · rw [State.chan_modChan]
    by_cases hd : d = 1
    · subst hd
      simp [h, Channel.setInternal]
    · simp [hd]
  · have hnot : ¬ FetchesForPartner s := fun hp => h hp.2
    simp [hnot]

/-- The fetch keeps the channel in service and the command. -/
theorem s4Fetch_holdAddress : (s4Fetch now s).holdAddress = s.holdAddress := by
  rw [State.holdAddress, s4Fetch_ctl]
  rfl

end Fetch

/-! The end of the transfer. -/

theorem holdAddress_eq (s : State) : s.holdAddress = (s.ctl.command.getLsbD 1 && decide (s.ctl.channel = 0)) := rfl

theorem s4Count_chan (s : State) (d : ChanId) :
    (s4Count s).chan d =
      if d = s.ctl.channel then ((s.chan s.ctl.channel).update s.holdAddress).setInternal false else s.chan d := by
  have houter : (s4Count s).chan d =
      if d = s.ctl.channel then
        ((s.modChan s.ctl.channel (Channel.setInternal false)).chan s.ctl.channel).update s.holdAddress
      else (s.modChan s.ctl.channel (Channel.setInternal false)).chan d := State.chan_modChan _ _ _ _
  rw [houter, State.chan_modChan_same, update_setInternal]
  split
  · rfl
  next hd => rw [chan_modChan_of_ne s _ hd]

theorem s4Count_ownFields (s : State) : SameOwnFields s (s4Count s) := ⟨⟨rfl, rfl⟩, rfl⟩

theorem s4Count_internalRequest_iff (s : State) (d : ChanId) :
    ((s4Count s).chan d).internalRequest = true ↔ d ≠ s.ctl.channel ∧ (s.chan d).internalRequest = true := by
  rw [s4Count_chan]
  by_cases hd : d = s.ctl.channel <;> simp [hd, Channel.setInternal]

theorem s4Count_transferMode (s : State) :
    ((s4Count s).chan s.ctl.channel).transferMode = (s.chan s.ctl.channel).transferMode := by
  rw [s4Count_chan, if_pos rfl]
  exact transferMode_update _ _

/-! What goes on. -/

/-- The channel whose internal request a Block transfer short of terminal count raises (R166). -/
def raisedChannel (s : State) : ChanId :=
  if memToMem s.ctl.command && decide (s.ctl.channel.val < 2) then partner s.ctl.channel else s.ctl.channel

section Continue

variable {s : State}

theorem s4Continue_of_single (hlatch : (s.chan s.ctl.channel).terminalCount = false)
    (hmode : (s.chan s.ctl.channel).transferMode = .single) : s4Continue s = enter .yield s := by
  simp only [s4Continue, hlatch, hmode, Bool.false_eq_true, if_false]

theorem s4Continue_of_block (hlatch : (s.chan s.ctl.channel).terminalCount = false)
    (hmode : (s.chan s.ctl.channel).transferMode = .block) :
    s4Continue s = s.modChan (raisedChannel s) (Channel.setInternal true) := by
  simp only [s4Continue, hlatch, hmode, Bool.false_eq_true, if_false, raisedChannel]
  split <;> rfl

/-- At terminal count, and for a Demand or Cascade transfer, nothing goes on. -/
theorem s4Continue_of_end
    (h : ¬ ((s.chan s.ctl.channel).terminalCount = false ∧
      ((s.chan s.ctl.channel).transferMode = .single ∨ (s.chan s.ctl.channel).transferMode = .block))) :
    s4Continue s = s := by
  cases hlatch : (s.chan s.ctl.channel).terminalCount with
  | true => simp only [s4Continue, hlatch, if_true]
  | false =>
    cases hmode : (s.chan s.ctl.channel).transferMode with
    | single => exact absurd ⟨hlatch, .inl hmode⟩ h
    | block => exact absurd ⟨hlatch, .inr hmode⟩ h
    | demand => simp only [s4Continue, hlatch, hmode, Bool.false_eq_true, if_false]
    | cascade => simp only [s4Continue, hlatch, hmode, Bool.false_eq_true, if_false]

theorem s4Continue_chan (s : State) (d : ChanId) : SameButInternal (s.chan d) ((s4Continue s).chan d) := by
  obtain h | h | ⟨c, h⟩ := s4Continue_cases s <;> rw [h]
  · exact sameButInternal_refl _
  · exact sameButInternal_refl _
  · rw [State.chan_modChan]
    split
    next hd => rw [hd]; exact sameButInternal_setInternal _ _
    next => exact sameButInternal_refl _

theorem s4Continue_ownFields (s : State) : SameOwnFields s (s4Continue s) := by
  obtain h | h | ⟨c, h⟩ := s4Continue_cases s <;> rw [h] <;> exact ⟨⟨rfl, rfl⟩, rfl⟩

theorem s4Continue_ctl_of_not_single
    (h : ¬ ((s.chan s.ctl.channel).terminalCount = false ∧ (s.chan s.ctl.channel).transferMode = .single)) :
    (s4Continue s).ctl = s.ctl := by
  by_cases hblock : (s.chan s.ctl.channel).terminalCount = false ∧ (s.chan s.ctl.channel).transferMode = .block
  · rw [s4Continue_of_block hblock.1 hblock.2, State.modChan_ctl]
  · rw [s4Continue_of_end]
    rintro ⟨hlatch, hmode | hmode⟩
    · exact h ⟨hlatch, hmode⟩
    · exact hblock ⟨hlatch, hmode⟩

theorem s4Continue_internalRequest_iff (s : State) (d : ChanId) :
    ((s4Continue s).chan d).internalRequest = true ↔
      (s.chan d).internalRequest = true ∨
        ((s.chan s.ctl.channel).terminalCount = false ∧ (s.chan s.ctl.channel).transferMode = .block ∧
          d = raisedChannel s) := by
  by_cases hblock : (s.chan s.ctl.channel).terminalCount = false ∧ (s.chan s.ctl.channel).transferMode = .block
  · obtain ⟨hlatch, hmode⟩ := hblock
    rw [s4Continue_of_block hlatch hmode, State.chan_modChan]
    by_cases hd : d = raisedChannel s
    · simp [hd, hlatch, hmode, Channel.setInternal]
    · simp [hd]
  · have hstays : (s4Continue s).chan d = s.chan d := by
      by_cases hsingle :
          (s.chan s.ctl.channel).terminalCount = false ∧ (s.chan s.ctl.channel).transferMode = .single
      · rw [s4Continue_of_single hsingle.1 hsingle.2, enter_chan]
      · rw [s4Continue_of_end]
        rintro ⟨hlatch, hmode | hmode⟩
        · exact hsingle ⟨hlatch, hmode⟩
        · exact hblock ⟨hlatch, hmode⟩
    rw [hstays]
    constructor
    · exact .inl
    · rintro (h | ⟨hlatch, hmode, -⟩)
      · exact h
      · exact absurd ⟨hlatch, hmode⟩ hblock

/-- The three ways to name the raised channel that R166 gives. -/
theorem eq_raisedChannel_iff (s : State) (d : ChanId) :
    d = raisedChannel s ↔
      (s.ctl.command.getLsbD 0 = true ∧ s.ctl.channel = 0 ∧ d = 1) ∨
        (s.ctl.command.getLsbD 0 = true ∧ s.ctl.channel = 1 ∧ d = 0) ∨
        (¬ (s.ctl.command.getLsbD 0 = true ∧ s.ctl.channel.val < 2) ∧ d = s.ctl.channel) := by
  rw [raisedChannel, memToMem]
  generalize s.ctl.command.getLsbD 0 = m2m
  generalize s.ctl.channel = k
  revert m2m k d
  decide

end Continue

/-! The whole action. -/

section ActionS4

variable (now : Nat) (pages : Pages) (s : State)

theorem actionS4_ownFields : SameOwnFields s (actionS4 now s) := by
  rw [actionS4, checkForDMA_eq]
  exact sameOwnFields_trans (s4Fetch_ownFields now s)
    (sameOwnFields_trans (s4Count_ownFields _) (s4Continue_ownFields _))

theorem s4Fetch_channel : (s4Fetch now s).ctl.channel = s.ctl.channel := by rw [s4Fetch_ctl]

/-- The channels when the transfer has ended: the one in service updated once, internal requests aside. -/
theorem s4Count_s4Fetch_chan (d : ChanId) :
    SameButInternal
      (if d = s.ctl.channel then (s.chan s.ctl.channel).update s.holdAddress else s.chan d)
      ((s4Count (s4Fetch now s)).chan d) := by
  rw [s4Count_chan, s4Fetch_channel, s4Fetch_holdAddress]
  split
  · exact sameButInternal_trans (sameButInternal_update (s4Fetch_chan now s _) _) (sameButInternal_setInternal _ _)
  · exact s4Fetch_chan now s d

/-- The channels after the action. -/
theorem actionS4_chan (d : ChanId) :
    SameButInternal
      (if d = s.ctl.channel then (s.chan s.ctl.channel).update s.holdAddress else s.chan d)
      ((actionS4 now s).chan d) := by
  rw [actionS4, checkForDMA_chan]
  exact sameButInternal_trans (s4Count_s4Fetch_chan now s d) (s4Continue_chan _ d)

/-- What the action does to the controller in each of its three outcomes. -/
theorem actionS4_ctl_fields :
    (actionS4 now s).ctl.dAck = false ∧ (actionS4 now s).ctl.command = s.ctl.command ∧
      (actionS4 now s).ctl.address = s.ctl.address ∧ (actionS4 now s).ctl.lastByte = s.ctl.lastByte ∧
      (actionS4 now s).ctl.highAddress = 0xffff#16 ∧
      (actionS4 now s).ctl.temporary = (s4Fetch now s).ctl.temporary ∧
      ((actionS4 now s).ctl.state = .idle ∨ (actionS4 now s).ctl.state = .yield ∨
        (actionS4 now s).ctl.state = .s0) := by
  obtain h | h | ⟨c, h⟩ := actionS4_ctl now s <;> rw [h]
  · exact ⟨rfl, rfl, rfl, rfl, rfl, rfl, .inr (.inl rfl)⟩
  · exact ⟨rfl, rfl, rfl, rfl, rfl, rfl, .inl rfl⟩
  · exact ⟨rfl, rfl, rfl, rfl, rfl, rfl, .inr (.inr rfl)⟩

theorem exec_cycS4 : exec (.cycS4 now pages) s = .next ((actionS4 now s).returning .nothing) := rfl

end ActionS4

/-- Settles O38: the channels and the controller of the S4 action. -/
theorem cycleInS4CountsTheTransfer : Obligations.CycleInS4CountsTheTransfer := by
  intro now pages s
  obtain ⟨hdack, hcommand, haddress, htoggle, hcache, -, -⟩ := actionS4_ctl_fields now s
  obtain ⟨henv, -⟩ := actionS4_ownFields now s
  refine ⟨_, exec_cycS4 now pages s, ?_, fun d hd => ?_, hdack, hcommand, haddress, htoggle, hcache, henv, rfl⟩
  · have hserved := actionS4_chan now s s.ctl.channel
    rw [if_pos rfl, holdAddress_eq] at hserved
    exact hserved
  · have hother := actionS4_chan now s d
    rw [if_neg hd] at hother
    exact hother

/-- The RAM after the S4 action. -/
theorem actionS4_ram_eq (now : Nat) (s : State) :
    (actionS4 now s).ram =
      if (s.chan s.ctl.channel).readsBus then s.ram.afterRead now s.bus.address.toNat else s.ram := by
  rw [actionS4_ram, s4Fetch_ram]

theorem actionS4_byteAt (now : Nat) (s : State) (y : Nat) : (actionS4 now s).ram.byteAt y = s.ram.byteAt y := by
  rw [actionS4_ram_eq]
  split
  · exact Ram.afterRead_byteAt _ _ _ _
  · rfl

theorem sameConfiguration_actionS4 (now : Nat) (s : State) : SameConfiguration s (actionS4 now s) := by
  obtain ⟨-, htemp⟩ := actionS4_ownFields now s
  by_cases hreads : (s.chan s.ctl.channel).readsBus = true
  · exact sameConfiguration_afterRead ((actionS4_ram_eq now s).trans (if_pos hreads)) htemp
  · exact sameConfiguration_of_eq ((actionS4_ram_eq now s).trans (if_neg hreads)) htemp

/-- Settles O39: by whether the transfer reads the bus. -/
theorem cycleInS4FetchesAByte : Obligations.CycleInS4FetchesAByte := by
  intro now pages s
  obtain ⟨-, -, -, -, -, htemporary, -⟩ := actionS4_ctl_fields now s
  have hbus := (actionS4_bus now s).trans (s4Fetch_bus now s)
  refine ⟨_, exec_cycS4 now pages s, sameConfiguration_actionS4 now s, actionS4_byteAt now s, fun hno => ?_,
    fun htype hmode => ?_⟩
  · have hreads : ¬ (s.chan s.ctl.channel).readsBus = true := fun h =>
      hno.elim (fun hne => hne ((readsBus_iff _).mp h).1) ((readsBus_iff _).mp h).2
    have hram := (actionS4_ram_eq now s).trans (if_neg hreads)
    rw [if_neg hreads] at hbus
    exact ⟨hbus, htemporary.trans (s4Fetch_temporary_of_no_read now s hreads),
      fun row => congrArg (fun r => r.deadlineAt row) hram⟩
  · have hreads : (s.chan s.ctl.channel).readsBus = true := (readsBus_iff _).mpr ⟨htype, hmode⟩
    have hram := (actionS4_ram_eq now s).trans (if_pos hreads)
    have hdata := s4Fetch_temporary_of_read now s hreads
    rw [← actionS4_bus] at hdata
    rw [if_pos hreads] at hbus
    refine ⟨hbus.trans ?_, htemporary.trans hdata, fun row => ?_⟩
    · rw [busReadValue, readValue_eq]
    · rw [State.returning_ram, hram, afterRead_deadlineAt_mod]

section Continues

variable (now : Nat) (s : State)

theorem s4Count_s4Fetch_channel : (s4Count (s4Fetch now s)).ctl.channel = s.ctl.channel := s4Fetch_channel now s

theorem s4Count_s4Fetch_transferMode :
    ((s4Count (s4Fetch now s)).chan s.ctl.channel).transferMode = (s.chan s.ctl.channel).transferMode := by
  have hcount := s4Count_transferMode (s4Fetch now s)
  rw [s4Fetch_channel] at hcount
  rw [hcount, transferMode_of_sameButInternal (s4Fetch_chan now s _)]

/-- Only the end of the transfer writes the latch that the statement reads afterwards. -/
theorem actionS4_terminalCount (d : ChanId) :
    ((actionS4 now s).chan d).terminalCount = ((s4Count (s4Fetch now s)).chan d).terminalCount := by
  rw [actionS4, checkForDMA_chan, terminalCount_of_sameButInternal (s4Continue_chan _ d)]

theorem raisedChannel_s4Count_s4Fetch : raisedChannel (s4Count (s4Fetch now s)) = raisedChannel s := by
  rw [raisedChannel, raisedChannel, s4Count_ctl, s4Fetch_ctl]

/-- The internal requests after the action: what stays, what the fetch raises, what goes on raises. -/
theorem actionS4_internalRequest_iff (d : ChanId) :
    ((actionS4 now s).chan d).internalRequest = true ↔
      (d ≠ s.ctl.channel ∧ (s.chan d).internalRequest = true) ∨ (FetchesForPartner s ∧ d = 1) ∨
        (((actionS4 now s).chan s.ctl.channel).terminalCount = false ∧
          (s.chan s.ctl.channel).transferMode = .block ∧ d = raisedChannel s) := by
  have hpartner : FetchesForPartner s → d = 1 → d ≠ s.ctl.channel := by
    rintro ⟨-, hchannel, -⟩ rfl
    rw [hchannel]
    decide
  rw [actionS4_terminalCount, actionS4, checkForDMA_chan, s4Continue_internalRequest_iff, s4Count_internalRequest_iff,
    s4Count_s4Fetch_channel, s4Count_s4Fetch_transferMode, raisedChannel_s4Count_s4Fetch, s4Fetch_channel,
    s4Fetch_internalRequest_iff]
  tauto

variable {now s}

/-- A Single transfer short of terminal count ends in Yield, where no arbitration grants. -/
theorem actionS4_of_yield (hlatch : ((actionS4 now s).chan s.ctl.channel).terminalCount = false)
    (hmode : (s.chan s.ctl.channel).transferMode = .single) :
    actionS4 now s = enter .yield (s4Count (s4Fetch now s)) := by
  rw [actionS4_terminalCount, ← s4Count_s4Fetch_channel now s] at hlatch
  rw [← s4Count_s4Fetch_transferMode now s, ← s4Count_s4Fetch_channel now s] at hmode
  rw [actionS4, s4Continue_of_single hlatch hmode,
    checkForDMA_of_none (arbitrate_of_not_idle (show Phase.yield ≠ .idle by decide))]

/-- In every other case the arbitration reads the state that the statement names. -/
theorem actionS4_ctl_of_not_single
    (h : ¬ (((actionS4 now s).chan s.ctl.channel).terminalCount = false ∧
      (s.chan s.ctl.channel).transferMode = .single)) :
    (actionS4 now s).ctl = arbitratedCtl (beforeS4Arbitration s ((actionS4 now s).returning .nothing)) := by
  rw [actionS4_terminalCount, ← s4Count_s4Fetch_transferMode now s, ← s4Count_s4Fetch_channel now s] at h
  obtain ⟨-, -, -, -, -, htemporary, -⟩ := actionS4_ctl_fields now s
  have hbefore : (s4Continue (s4Count (s4Fetch now s))).ctl =
      (beforeS4Arbitration s ((actionS4 now s).returning .nothing)).ctl := by
    rw [s4Continue_ctl_of_not_single h, s4Count_ctl, s4Fetch_ctl, beforeS4Arbitration, State.returning_ctl, htemporary]
    rfl
  have hstate : beforeS4Arbitration s ((actionS4 now s).returning .nothing) =
      (s4Continue (s4Count (s4Fetch now s))).returning .nothing := by
    have hset : beforeS4Arbitration s ((actionS4 now s).returning .nothing) =
        ((actionS4 now s).returning .nothing).setCtl
          (beforeS4Arbitration s ((actionS4 now s).returning .nothing)).ctl := rfl
    rw [hset, ← hbefore, actionS4, checkForDMA_eq]
    rfl
  rw [hstate, actionS4, checkForDMA_ctl]
  rfl

end Continues

/-- Settles O40: the internal requests phase by phase, and the two outcomes for the controller. -/
theorem cycleInS4Continues : Obligations.CycleInS4Continues := by
  intro now pages s
  refine ⟨_, exec_cycS4 now pages s, fun d => ?_, fun hgoesOn hmode => ?_, actionS4_ctl_of_not_single⟩
  · rw [State.returning_chan, State.returning_chan, actionS4_internalRequest_iff, FetchesForPartner, readsBus_iff,
      eq_raisedChannel_iff]
    simp only [and_assoc]
  · rw [State.returning_ctl, actionS4_of_yield hgoesOn hmode]
    exact ⟨rfl, s4Count_s4Fetch_channel now s⟩

end Sys2Proof.Proofs
end

section
/-! PROOFS. A granted transfer cycle by cycle (R169): one lemma for the step that a waiting `CYC` makes in S1, in S2, in
S3 without compressed timing, and where the S4 action runs; the two counts of cycles chain them. -/

namespace Sys2Proof.Proofs

open Sys2Proof.Machine

section CycleSteps

variable {s : State} {now : Nat} {pages : Pages} {rest : List Invocation}

theorem step_simulateCycle (hinputs : s.inputs = .simulateCycle now pages :: rest) :
    step s = exec (cycInstr s.ctl.state now pages) { s with inputs := rest } :=
  step_of_cons hinputs

/-- A step that moves the sequencer alone. -/
def MovesTo (s t : State) (p : Phase) (rest : List Invocation) : Prop :=
  t.ctl = { s.ctl with state := p } ∧ SameChannels s t ∧ t.inputs = rest

theorem step_in_s1 (hinputs : s.inputs = .simulateCycle now pages :: rest) (hstate : s.ctl.state = .s1)
    (hdrive : s.mustDriveHigh = true) : ∃ t, step s = .next t ∧ MovesTo s t .s2 rest := by
  rw [step_simulateCycle hinputs, hstate]
  exact ⟨_, exec_cycS1_of_mustDriveHigh now pages hdrive, rfl, fun _ => rfl, rfl⟩

/-- The S2 action asserts `dAck` and keeps the grant. -/
theorem step_in_s2 (hinputs : s.inputs = .simulateCycle now pages :: rest) (hstate : s.ctl.state = .s2) :
    ∃ t, step s = .next t ∧ t.ctl.state = .s3 ∧ t.ctl.dAck = true ∧ t.ctl.channel = s.ctl.channel ∧
      t.ctl.command = s.ctl.command ∧ SameChannels s t ∧ t.inputs = rest := by
  rw [step_simulateCycle hinputs, hstate]
  have hctl := actionS2_ctl now pages { s with inputs := rest }
  obtain ⟨⟨hrest, -⟩, -⟩ := actionS2_ownFields now pages (s := { s with inputs := rest })
  refine ⟨_, exec_cycS2 now pages _, ?_, ?_, ?_, ?_, actionS2_chan now pages _, hrest⟩
  all_goals rw [State.returning_ctl, hctl]

theorem step_in_s3 (hinputs : s.inputs = .simulateCycle now pages :: rest) (hstate : s.ctl.state = .s3)
    (huncompressed : compressed s.ctl.command = false) : ∃ t, step s = .next t ∧ MovesTo s t .s4 rest := by
  rw [step_simulateCycle hinputs, hstate]
  exact ⟨_, exec_cycS3_of_uncompressed now pages huncompressed, rfl, fun _ => rfl, rfl⟩

/-- The transfer of `s` has ended in `t`, its channel updated once. -/
def EndsTransfer (s t : State) (rest : List Invocation) : Prop :=
  (t.ctl.state = .idle ∨ t.ctl.state = .yield ∨ t.ctl.state = .s0) ∧ t.ctl.dAck = false ∧ t.inputs = rest ∧
    SameButInternal
      ((s.chan s.ctl.channel).update (s.ctl.command.getLsbD 1 && decide (s.ctl.channel = 0))) (t.chan s.ctl.channel)

theorem endsTransfer_actionS4 (now : Nat) (s : State) (rest : List Invocation) :
    EndsTransfer s ((actionS4 now { s with inputs := rest }).returning .nothing) rest := by
  obtain ⟨hdack, -, -, -, -, -, hphase⟩ := actionS4_ctl_fields now { s with inputs := rest }
  obtain ⟨⟨hrest, -⟩, -⟩ := actionS4_ownFields now { s with inputs := rest }
  have hchan := actionS4_chan now { s with inputs := rest } s.ctl.channel
  rw [if_pos rfl, holdAddress_eq] at hchan
  exact ⟨hphase, hdack, hrest, hchan⟩

theorem step_in_s4 (hinputs : s.inputs = .simulateCycle now pages :: rest) (hstate : s.ctl.state = .s4) :
    ∃ t, step s = .next t ∧ EndsTransfer s t rest := by
  rw [step_simulateCycle hinputs, hstate]
  exact ⟨_, exec_cycS4 now pages _, endsTransfer_actionS4 now s rest⟩

theorem step_in_compressed_s3 (hinputs : s.inputs = .simulateCycle now pages :: rest) (hstate : s.ctl.state = .s3)
    (hcompressed : compressed s.ctl.command = true) : ∃ t, step s = .next t ∧ EndsTransfer s t rest := by
  rw [step_simulateCycle hinputs, hstate]
  have hmerged := exec_cycS3_of_compressed now pages (s := { s with inputs := rest }) hcompressed
  exact ⟨_, hmerged.trans (exec_cycS4 now pages _), endsTransfer_actionS4 now s rest⟩

/-- What the end of a transfer says of its channel depends on the grant and the channels alone. -/
theorem endsTransfer_of_same {s m t : State} {rest : List Invocation} (hchannel : m.ctl.channel = s.ctl.channel)
    (hcommand : m.ctl.command = s.ctl.command) (hchan : SameChannels s m) (h : EndsTransfer m t rest) :
    EndsTransfer s t rest := by
  rwa [EndsTransfer, hchannel, hcommand, hchan] at h

end CycleSteps

/-- In S1 the invariant leaves no byte in the cache that the skip could find (R169). -/
theorem mustDriveHigh_of_inv {s : State} (hinv : Inv s) (hstate : s.ctl.state = .s1) : s.mustDriveHigh = true := by
  obtain ⟨-, -, hdropped, -⟩ := hinv
  have hr := (s.chan s.ctl.channel).currentAddress.isLt
  rw [mustDriveHigh_eq_true_iff, hdropped (.inr (.inr (.inl hstate))), BitVec.toNat_ofNat]
  exact .inr (by omega)

/-- Settles O42: S1, S2, S3 and S4 one after the other. -/
theorem transferTakesFourCycles : Obligations.TransferTakesFourCycles := by
  intro s n1 n2 n3 n4 p1 p2 p3 p4 rest hstate hcommand hinputs
  obtain ⟨t1, hstep1, hctl1, hchan1, hinputs1⟩ :=
    step_in_s1 hinputs hstate ((mustDriveHigh_eq_true_iff s).mpr (.inl hcommand))
  obtain ⟨t2, hstep2, hstate2, hdack2, hchannel2, hcommand2, hchan2, hinputs2⟩ :=
    step_in_s2 hinputs1 (by rw [hctl1])
  rw [hctl1] at hchannel2 hcommand2
  obtain ⟨t3, hstep3, hctl3, hchan3, hinputs3⟩ :=
    step_in_s3 hinputs2 hstate2 (by rw [hcommand2]; exact hcommand)
  obtain ⟨t4, hstep4, hend⟩ := step_in_s4 hinputs3 (by rw [hctl3])
  have hchan := sameChannels_trans (sameChannels_trans hchan1 hchan2) hchan3
  obtain ⟨hphase, hdack, hrest, hupdate⟩ :=
    endsTransfer_of_same (by rw [hctl3, hchannel2]) (by rw [hctl3, hcommand2]) hchan hend
  exact ⟨t1, t2, t3, t4, hstep1, hstep2, hstep3, hstep4, by rw [hctl1], hstate2, by rw [hctl3], hphase, by rw [hctl1],
    hdack2, by rw [hctl3, hdack2], hdack, hrest, hupdate⟩

/-- Settles O43: S1 by the invariant, S2, and S3 with the S4 action in it. -/
theorem compressedTransferTakesThreeCycles : Obligations.CompressedTransferTakesThreeCycles := by
  intro s n1 n2 n3 p1 p2 p3 rest hinv hstate hcommand hinputs
  have hdrive := mustDriveHigh_of_inv hinv hstate
  obtain ⟨-, hdack0, -, -⟩ := hinv
  rw [DackInTransfer, hstate] at hdack0
  obtain ⟨t1, hstep1, hctl1, hchan1, hinputs1⟩ := step_in_s1 hinputs hstate hdrive
  obtain ⟨t2, hstep2, hstate2, hdack2, hchannel2, hcommand2, hchan2, hinputs2⟩ :=
    step_in_s2 hinputs1 (by rw [hctl1])
  rw [hctl1] at hchannel2 hcommand2
  obtain ⟨t3, hstep3, hend⟩ := step_in_compressed_s3 hinputs2 hstate2 (by rw [hcommand2]; exact hcommand)
  obtain ⟨hphase, hdack, hrest, hupdate⟩ :=
    endsTransfer_of_same hchannel2 hcommand2 (sameChannels_trans hchan1 hchan2) hend
  exact ⟨t1, t2, t3, hstep1, hstep2, hstep3, by rw [hctl1], hstate2, hphase, by rw [hctl1, hdack0]; rfl, hdack2, hdack,
    hrest, hupdate⟩

end Sys2Proof.Proofs
end

section
/-! PROOFS. What one step can do, said once: which fields of each channel it may write (R21 to R26), which of three
things it does to the RAM (R253, R254), and how it moves the controller (R28).  The statements about every step are read off
it. -/

namespace Sys2Proof.Proofs

open Sys2Proof.Machine

/-! The arm that a `CYC` selects (R160). -/

/-- The state of the sequencer that an arm of `CYC` belongs to. -/
def cyclePhase : Instr → Option Phase
  | .cycIdle _ _ => some .idle
  | .cycS0 _ _ => some .s0
  | .cycS1 _ _ => some .s1
  | .cycS2 _ _ => some .s2
  | .cycS3 _ _ => some .s3
  | .cycS4 _ _ => some .s4
  | .cycYield _ _ => some .yield
  | _ => none

theorem cyclePhase_cycInstr (p : Phase) (now : Nat) (pages : Pages) : cyclePhase (cycInstr p now pages) = some p := by
  cases p <;> rfl

theorem cyclePhase_regInstr (dir : Bool) (addr : BitVec 4) (v : Byte) : cyclePhase (regInstr dir addr v) = none := by
  unfold regInstr
  split <;> rfl

/-- The operation, if an arm of `CYC`, is the arm of the state that `s` is in. -/
def Selected (s : State) (i : Instr) : Prop := ∀ p, cyclePhase i = some p → s.ctl.state = p

theorem selected_of_cyclePhase_none {s : State} {i : Instr} (h : cyclePhase i = none) : Selected s i := by
  intro p hp
  rw [h] at hp
  cases hp

theorem selected_select (s : State) (call : Invocation) : Selected s (call.select s.ctl.address s.ctl.state) := by
  cases call with
  | read => exact selected_of_cyclePhase_none (cyclePhase_regInstr _ _ _)
  | write v => exact selected_of_cyclePhase_none (cyclePhase_regInstr _ _ _)
  | simulateCycle now pages =>
    intro p hp
    rw [select_simulateCycle, cyclePhase_cycInstr] at hp
    exact Option.some.inj hp
  | _ => exact selected_of_cyclePhase_none rfl

theorem selected_of_nextInstr {s : State} {i : Instr} (h : s.nextInstr = some i) : Selected s i := by
  cases hinputs : s.inputs with
  | nil =>
    rw [State.nextInstr, hinputs] at h
    cases h
  | cons call rest =>
    rw [nextInstr_of_cons hinputs] at h
    rw [← Option.some.inj h]
    exact selected_select s call

/-! The fields of a channel. -/

/-- `y`, what channel `c` holds after `i` ran in `s`, differs from what it held only in fields that `i` writes. -/
structure FieldWriters (s : State) (i : Instr) (c : ChanId) (y : Channel) : Prop where
  base : writesRegistersOf i c = false →
    y.baseAddress = (s.chan c).baseAddress ∧ y.baseCount = (s.chan c).baseCount
  current : writesRegistersOf i c = false → (countsTransfer i s = false ∨ c ≠ s.ctl.channel) →
    y.currentAddress = (s.chan c).currentAddress ∧ y.currentCount = (s.chan c).currentCount
  internal : countsTransfer i s = false → y.internalRequest = (s.chan c).internalRequest
  mode : writesModeOf i c = false → y.mode = (s.chan c).mode
  hard : writesHardOf i c = false → y.hardRequest = (s.chan c).hardRequest
  soft : writesSoftOf i c = false → y.softRequest = (s.chan c).softRequest
  mask : writesMask i = false → y.mask = (s.chan c).mask
  latchCleared : (s.chan c).terminalCount = true → y.terminalCount = false → clearsTerminalCount i = true
  latchSet : (s.chan c).terminalCount = false → y.terminalCount = true →
    countsTransfer i s = true ∧ c = s.ctl.channel

section FieldWriters

variable (s : State) (i : Instr) (c : ChanId)

theorem fieldWriters_same : FieldWriters s i c (s.chan c) where
  base _ := ⟨rfl, rfl⟩
  current _ _ := ⟨rfl, rfl⟩
  internal _ := rfl
  mode _ := rfl
  hard _ := rfl
  soft _ := rfl
  mask _ := rfl
  latchCleared h h' := nomatch h.symm.trans h'
  latchSet h h' := nomatch h.symm.trans h'

variable {s i c}

theorem fieldWriters_write (sel : RegSelect) (v : Byte) (high : Bool) (h : writesRegistersOf i c = true) :
    FieldWriters s i c ((s.chan c).write sel v high) := by
  cases sel <;>
    exact { fieldWriters_same s i c with
      base := fun hn => nomatch h.symm.trans hn
      current := fun hn => nomatch h.symm.trans hn }

theorem fieldWriters_setMode (v : Byte) (h : writesModeOf i c = true) : FieldWriters s i c ((s.chan c).setMode v) :=
  { fieldWriters_same s i c with mode := fun hn => nomatch h.symm.trans hn }

theorem fieldWriters_setHard (b : Bool) (h : writesHardOf i c = true) : FieldWriters s i c ((s.chan c).setHard b) :=
  { fieldWriters_same s i c with hard := fun hn => nomatch h.symm.trans hn }

theorem fieldWriters_setSoft (b : Bool) (h : writesSoftOf i c = true) : FieldWriters s i c ((s.chan c).setSoft b) :=
  { fieldWriters_same s i c with soft := fun hn => nomatch h.symm.trans hn }

theorem fieldWriters_setMask (b : Bool) (h : writesMask i = true) : FieldWriters s i c ((s.chan c).setMask b) :=
  { fieldWriters_same s i c with mask := fun hn => nomatch h.symm.trans hn }

theorem fieldWriters_afterStatus (h : clearsTerminalCount i = true) : FieldWriters s i c (s.chan c).afterStatus :=
  { fieldWriters_same s i c with
    latchCleared := fun _ _ => h
    latchSet := fun _ hset => nomatch hset }

theorem fieldWriters_clear (v : Byte) : FieldWriters s (.wrMclr v) c (s.chan c).clear :=
  { fieldWriters_same s (.wrMclr v) c with
    soft := fun hn => nomatch hn
    mask := fun hn => nomatch hn
    latchCleared := fun _ _ => rfl
    latchSet := fun _ hset => nomatch hset }

theorem fieldWriters_setInternal (b : Bool) (h : countsTransfer i s = true) :
    FieldWriters s i c ((s.chan c).setInternal b) :=
  { fieldWriters_same s i c with internal := fun hn => nomatch h.symm.trans hn }

/-- An update clears no latch (R142). -/
theorem terminalCount_update_of_set {x : Channel} (hold : Bool) (h : x.terminalCount = true) :
    (x.update hold).terminalCount = true := by
  unfold Channel.update
  split
  · split
    · exact h
    · rfl
  · exact h

theorem fieldWriters_update (hold b : Bool) (h : countsTransfer i s = true) (hc : c = s.ctl.channel) :
    FieldWriters s i c (((s.chan c).update hold).setInternal b) := by
  have hset := terminalCount_update_of_set (x := s.chan c) hold
  rw [update_frame]
  exact
    { fieldWriters_setInternal b h with
      current := fun _ hn => hn.elim (fun hn => nomatch h.symm.trans hn) fun hn => absurd hc hn
      latchCleared := fun hlatch hclear => nomatch (hset hlatch).symm.trans hclear
      latchSet := fun _ _ => ⟨h, hc⟩ }

theorem fieldWriters_modChan {f : Channel → Channel} (h : FieldWriters s i c (f (s.chan c))) (d : ChanId) :
    FieldWriters s i d ((s.modChan c f).chan d) := by
  rw [State.chan_modChan]
  split
  next hd => rw [hd]; exact h
  next => exact fieldWriters_same s i d

end FieldWriters

/-- The S4 action on each channel. -/
theorem fieldWriters_actionS4 {s : State} {i : Instr} (h : countsTransfer i s = true) (now : Nat) (d : ChanId) :
    FieldWriters s i d ((actionS4 now s).chan d) := by
  obtain ⟨b, hb⟩ := sameButInternal_iff.mp (actionS4_chan now s d)
  rw [hb]
  split
  next hd =>
    rw [← hd]
    exact fieldWriters_update _ b h hd
  next => exact fieldWriters_setInternal b h

/-! The RAM and the controller. -/

/-- The three things that an operation can do to the RAM. -/
inductive RamEffect (s : State) (i : Instr) : Ram → Prop
  | same : RamEffect s i s.ram
  | read (now a : Nat) : RamEffect s i (s.ram.afterRead now a)
  | write (now a : Nat) (b : Byte) (h : storeAddress i s = some a) : RamEffect s i (s.ram.afterWrite now a b)

/-- The fields of the sequencer are as before (R28, R30, R34, R35); the registers beside them are free. -/
def SameSequencer (x y : Controller) : Prop :=
  y.state = x.state ∧ y.channel = x.channel ∧ y.dAck = x.dAck ∧ y.highAddress = x.highAddress

/-- How an operation can move the controller. -/
inductive ControlEffect (s : State) (i : Instr) : Controller → Prop
  | same {x : Controller} (h : SameSequencer s.ctl x) : ControlEffect s i x
  | arbitrated (m : State) (hm : m.ctl = s.ctl) (hedge : phaseEdge i .idle .s0 = true) :
      ControlEffect s i (arbitratedCtl m)
  | cleared (hclear : ∃ v, i = .wrMclr v) : ControlEffect s i (arbitratedCtl (masterCleared s))
  | cacheDropped (hidle : s.ctl.state = .idle) : ControlEffect s i { s.ctl with highAddress := sentinel }
  | started (hi : i = .hrq) (hs0 : s.ctl.state = .s0) : ControlEffect s i { s.ctl with state := .s1 }
  | advancedToS2 (hi : ∃ now pages, i = .cycS1 now pages) (hs1 : s.ctl.state = .s1) :
      ControlEffect s i { s.ctl with state := .s2 }
  | acted (now : Nat) (pages : Pages) (hedge : phaseEdge i s.ctl.state .s3 = true) :
      ControlEffect s i (actionS2 now pages s).ctl
  | advancedToS4 (hi : ∃ now pages, i = .cycS3 now pages) (hs3 : s.ctl.state = .s3) :
      ControlEffect s i { s.ctl with state := .s4 }
  | ended (now : Nat) (hi : endsService i = true)
      (hedge : ∀ p, p = .idle ∨ p = .yield ∨ p = .s0 → phaseEdge i s.ctl.state p = true) :
      ControlEffect s i (actionS4 now s).ctl
  | left (hi : ∃ now pages, i = .cycYield now pages) (hyield : s.ctl.state = .yield) :
      ControlEffect s i (arbitratedCtl (enter .idle s))

/-- What `i` can do to `s`. -/
structure Effect (s : State) (i : Instr) (t : State) : Prop where
  channels (c : ChanId) : FieldWriters s i c (t.chan c)
  ram : RamEffect s i t.ram
  tempClearOnRead : t.tempClearOnRead = s.tempClearOnRead
  control : ControlEffect s i t.ctl

section Effect

variable {s t u : State} {i : Instr}

theorem effect_of_exec_eq (hexec : exec i s = .next u) (h : exec i s = .next t) (hu : Effect s i u) : Effect s i t :=
  Host.Outcome.next.inj (hexec.symm.trans h) ▸ hu

/-- An operation that replaces the channels and the controller, and answers. -/
theorem effect_set (q : Quad Channel) (x : Controller) (r : Returned) (hq : ∀ c, FieldWriters s i c (q.get c))
    (hx : ControlEffect s i x) : Effect s i ({ s with ch := q, ctl := x }.returning r) :=
  ⟨hq, .same, rfl, hx⟩

theorem effect_setCtl (x : Controller) (r : Returned) (hx : ControlEffect s i x) :
    Effect s i ((s.setCtl x).returning r) :=
  effect_set s.ch x r (fieldWriters_same s i) hx

/-- An answer alone. -/
theorem effect_returning (r : Returned) : Effect s i (s.returning r) :=
  effect_setCtl s.ctl r (.same ⟨rfl, rfl, rfl, rfl⟩)

/-- An operation that writes channels and arbitrates. -/
theorem effect_checkForDMA {m : State} (r : Returned) (hq : ∀ c, FieldWriters s i c (m.chan c)) (hram : m.ram = s.ram)
    (htemp : m.tempClearOnRead = s.tempClearOnRead) (hm : m.ctl = s.ctl) (hedge : phaseEdge i .idle .s0 = true) :
    Effect s i ((checkForDMA m).returning r) := by
  rw [checkForDMA_eq]
  refine ⟨hq, ?_, htemp, .arbitrated m hm hedge⟩
  rw [State.returning_ram, State.setCtl_ram, hram]
  exact .same

theorem effect_rdChannelInstr (c : ChanId) (sel : RegSelect) (h : exec (rdChannelInstr c sel) s = .next t) :
    Effect s (rdChannelInstr c sel) t :=
  effect_of_exec_eq (exec_rdChannelInstr c sel s) h (effect_setCtl _ _ (.same ⟨rfl, rfl, rfl, rfl⟩))

theorem writesRegistersOf_wrChannelInstr (c : ChanId) (sel : RegSelect) (v : Byte) :
    writesRegistersOf (wrChannelInstr c sel v) c = true := by
  fin_cases c <;> cases sel <;> rfl

theorem effect_wrChannelInstr (c : ChanId) (sel : RegSelect) (v : Byte)
    (h : exec (wrChannelInstr c sel v) s = .next t) : Effect s (wrChannelInstr c sel v) t := by
  have hwrite := fieldWriters_write (s := s) sel v s.ctl.lastByte (writesRegistersOf_wrChannelInstr c sel v)
  exact effect_of_exec_eq (exec_wrChannelInstr c sel v s) h
    (effect_set _ _ _ (fieldWriters_modChan (f := fun x => x.write sel v s.ctl.lastByte) hwrite)
      (.same ⟨rfl, rfl, rfl, rfl⟩))

theorem effect_unmapped (hi : i ∈ unmappedReads) (h : exec i s = .next t) : Effect s i t :=
  effect_of_exec_eq (exec_unmapped hi s) h ⟨fieldWriters_same s i, .same, rfl, .same ⟨rfl, rfl, rfl, rfl⟩⟩

theorem writesModeOf_chSel (v : Byte) : writesModeOf (.wrMode v) (chSel v) = true := beq_iff_eq.mpr (chSel_val v)

theorem writesSoftOf_chSel (v : Byte) : writesSoftOf (.wrRequest v) (chSel v) = true := beq_iff_eq.mpr (chSel_val v)

/-- Both operations that write a hard request: the channel is in range, and the arbiter runs. -/
theorem effect_setHard {c : Nat} (b : Bool) (hwrites : ∀ k : ChanId, k.val = c → writesHardOf i k = true)
    (hedge : phaseEdge i .idle .s0 = true)
    (h : (onChannel c fun k => (checkForDMA (s.modChan k (Channel.setHard b))).returning .nothing) = .next t) :
    Effect s i t := by
  obtain ⟨k, hk, rfl⟩ := onChannel_eq_next h
  exact effect_checkForDMA _ (fieldWriters_modChan (fieldWriters_setHard b (hwrites k hk))) rfl rfl rfl hedge

theorem effect_dack {c : Nat} (h : exec (.dack c) s = .next t) : Effect s (.dack c) t := by
  rw [exec_dack_eq_onChannel] at h
  obtain ⟨k, -, rfl⟩ := onChannel_eq_next h
  exact effect_returning _

theorem effect_hrq (h : exec .hrq s = .next t) : Effect s .hrq t := by
  refine effect_of_exec_eq (exec_hrq s) h (effect_setCtl _ _ ?_)
  split
  next hs0 => exact .started rfl hs0
  next => exact .same ⟨rfl, rfl, rfl, rfl⟩

/-- The S2 action, in its arm or by the skip of S1. -/
theorem effect_actionS2 (now : Nat) (pages : Pages) (hedge : phaseEdge i s.ctl.state .s3 = true)
    (hstore : (s.chan s.ctl.channel).writesBus = true → storeAddress i s = some (drivenAddress pages s).toNat) :
    Effect s i ((actionS2 now pages s).returning .nothing) := by
  obtain ⟨-, htemp⟩ := actionS2_ownFields now pages (s := s)
  refine ⟨fun c => ?_, ?_, htemp, .acted now pages hedge⟩
  · rw [State.returning_chan, actionS2_chan]
    exact fieldWriters_same s i c
  · rw [State.returning_ram, actionS2_ram]
    split
    next hwrites => exact .write now _ _ (hstore hwrites)
    next => exact .same

/-- The S4 action, in its arm or in that of S3. -/
theorem effect_actionS4 (now : Nat) (hcounts : countsTransfer i s = true) (hi : endsService i = true)
    (hedge : ∀ p, p = .idle ∨ p = .yield ∨ p = .s0 → phaseEdge i s.ctl.state p = true) :
    Effect s i ((actionS4 now s).returning .nothing) := by
  obtain ⟨-, htemp⟩ := actionS4_ownFields now s
  refine ⟨fieldWriters_actionS4 hcounts now, ?_, htemp, .ended now hi hedge⟩
  rw [State.returning_ram, actionS4_ram_eq]
  split
  · exact .read now _
  · exact .same

theorem effect_cycS1 {now : Nat} {pages : Pages} (hs1 : s.ctl.state = .s1)
    (h : exec (.cycS1 now pages) s = .next t) : Effect s (.cycS1 now pages) t := by
  cases hdrive : s.mustDriveHigh with
  | true =>
    exact effect_of_exec_eq (exec_cycS1_of_mustDriveHigh now pages hdrive) h
      (effect_setCtl _ _ (.advancedToS2 ⟨now, pages, rfl⟩ hs1))
  | false =>
    refine effect_of_exec_eq ((exec_cycS1_of_cached now pages hdrive).trans (exec_cycS2 now pages s)) h
      (effect_actionS2 now pages (by rw [hs1]; rfl) fun hwrites => ?_)
    simp only [storeAddress, hdrive, hwrites, Bool.not_false, Bool.and_self, if_true]
    rfl

theorem effect_cycS2 {now : Nat} {pages : Pages} (hs2 : s.ctl.state = .s2)
    (h : exec (.cycS2 now pages) s = .next t) : Effect s (.cycS2 now pages) t :=
  effect_of_exec_eq (exec_cycS2 now pages s) h
    (effect_actionS2 now pages (by rw [hs2]; rfl) fun hwrites => if_pos hwrites)

theorem effect_cycS3 {now : Nat} {pages : Pages} (hs3 : s.ctl.state = .s3)
    (h : exec (.cycS3 now pages) s = .next t) : Effect s (.cycS3 now pages) t := by
  cases hcompressed : compressed s.ctl.command with
  | true =>
    refine effect_of_exec_eq ((exec_cycS3_of_compressed now pages hcompressed).trans (exec_cycS4 now pages s)) h
      (effect_actionS4 now hcompressed rfl fun p hp => ?_)
    rw [hs3]
    obtain rfl | rfl | rfl := hp <;> rfl
  | false =>
    exact effect_of_exec_eq (exec_cycS3_of_uncompressed now pages hcompressed) h
      (effect_setCtl _ _ (.advancedToS4 ⟨now, pages, rfl⟩ hs3))

theorem effect_cycS4 {now : Nat} {pages : Pages} (hs4 : s.ctl.state = .s4)
    (h : exec (.cycS4 now pages) s = .next t) : Effect s (.cycS4 now pages) t := by
  refine effect_of_exec_eq (exec_cycS4 now pages s) h (effect_actionS4 now rfl rfl fun p hp => ?_)
  rw [hs4]
  obtain rfl | rfl | rfl := hp <;> rfl

end Effect

/-- Every operation that answers a next state has its effect, an arm of `CYC` in the state that selects it. -/
theorem effect_of_exec {s t : State} {i : Instr} (hsel : Selected s i) (h : exec i s = .next t) : Effect s i t := by
  cases i with
  | rdAddr0 => exact effect_rdChannelInstr 0 .address h
  | rdCnt0 => exact effect_rdChannelInstr 0 .count h
  | rdAddr1 => exact effect_rdChannelInstr 1 .address h
  | rdCnt1 => exact effect_rdChannelInstr 1 .count h
  | rdAddr2 => exact effect_rdChannelInstr 2 .address h
  | rdCnt2 => exact effect_rdChannelInstr 2 .count h
  | rdAddr3 => exact effect_rdChannelInstr 3 .address h
  | rdCnt3 => exact effect_rdChannelInstr 3 .count h
  | rdStatus =>
    exact effect_of_exec_eq (exec_rdStatus s) h
      (effect_set _ s.ctl _ (fun c => (Quad.get_mapIdx _ s.ch c).symm ▸ fieldWriters_afterStatus rfl)
        (.same ⟨rfl, rfl, rfl, rfl⟩))
  | rdTemp => exact effect_of_exec_eq (exec_rdTemp s) h (effect_setCtl _ _ (.same ⟨rfl, rfl, rfl, rfl⟩))
  | rdUnmapped9 | rdUnmapped10 | rdUnmapped11 | rdUnmapped12 | rdUnmapped14 | rdUnmapped15 =>
    exact effect_unmapped (by decide) h
  | wrAddr0 v => exact effect_wrChannelInstr 0 .address v h
  | wrCnt0 v => exact effect_wrChannelInstr 0 .count v h
  | wrAddr1 v => exact effect_wrChannelInstr 1 .address v h
  | wrCnt1 v => exact effect_wrChannelInstr 1 .count v h
  | wrAddr2 v => exact effect_wrChannelInstr 2 .address v h
  | wrCnt2 v => exact effect_wrChannelInstr 2 .count v h
  | wrAddr3 v => exact effect_wrChannelInstr 3 .address v h
  | wrCnt3 v => exact effect_wrChannelInstr 3 .count v h
  | wrCommand v => exact effect_of_exec_eq (exec_wrCommand v s) h (effect_setCtl _ _ (.same ⟨rfl, rfl, rfl, rfl⟩))
  | wrRequest v =>
    exact effect_of_exec_eq (exec_wrRequest v s) h
      (effect_checkForDMA _ (fieldWriters_modChan (fieldWriters_setSoft _ (writesSoftOf_chSel v))) rfl rfl rfl rfl)
  | wrMask1 v =>
    exact effect_of_exec_eq (exec_wrMask1 v s) h
      (effect_checkForDMA _ (fieldWriters_modChan (fieldWriters_setMask _ rfl)) rfl rfl rfl rfl)
  | wrMode v =>
    exact effect_of_exec_eq (exec_wrMode v s) h
      (effect_set _ s.ctl _ (fieldWriters_modChan (fieldWriters_setMode v (writesModeOf_chSel v)))
        (.same ⟨rfl, rfl, rfl, rfl⟩))
  | wrClrff v => exact effect_of_exec_eq (exec_wrClrff v s) h (effect_setCtl _ _ (.same ⟨rfl, rfl, rfl, rfl⟩))
  | wrMclr v =>
    have hq (c : ChanId) : FieldWriters s (.wrMclr v) c ((masterCleared s).chan c) :=
      (masterCleared_chan s c).symm ▸ fieldWriters_clear v
    refine effect_of_exec_eq (exec_wrMclr v s) h ?_
    rw [checkForDMA_eq]
    exact effect_set _ _ _ hq (.cleared ⟨v, rfl⟩)
  | wrMclrMask v =>
    exact effect_of_exec_eq (exec_wrMclrMask v s) h
      (effect_checkForDMA _ (fun c => (chan_mapIdx s _ c).symm ▸ fieldWriters_setMask _ rfl) rfl rfl rfl rfl)
  | wrMaskAll v =>
    exact effect_of_exec_eq (exec_wrMaskAll v s) h
      (effect_checkForDMA _ (fun c => (chan_mapIdx s _ c).symm ▸ fieldWriters_setMask _ rfl) rfl rfl rfl rfl)
  | seta a => exact effect_of_exec_eq (exec_seta a s) h (effect_setCtl _ _ (.same ⟨rfl, rfl, rfl, rfl⟩))
  | dreq c =>
    exact effect_setHard true (fun k hk => beq_iff_eq.mpr hk.symm) rfl ((exec_dreq_eq_onChannel c s).symm.trans h)
  | hrq => exact effect_hrq h
  | dack c => exact effect_dack h
  | dmaDone c =>
    exact effect_setHard false (fun k hk => beq_iff_eq.mpr hk.symm) rfl ((exec_dmaDone_eq_onChannel c s).symm.trans h)
  | busdata v =>
    exact effect_of_exec_eq (exec_busdata v s) h
      ⟨fieldWriters_same s _, .same, rfl, .same ⟨rfl, rfl, rfl, rfl⟩⟩
  | cycIdle now pages =>
    exact effect_of_exec_eq (exec_cycIdle now pages s) h (effect_setCtl _ _ (.cacheDropped (hsel .idle rfl)))
  | cycS0 now pages => exact effect_of_exec_eq (exec_cycS0 now pages s) h (effect_returning _)
  | cycS1 now pages => exact effect_cycS1 (hsel .s1 rfl) h
  | cycS2 now pages => exact effect_cycS2 (hsel .s2 rfl) h
  | cycS3 now pages => exact effect_cycS3 (hsel .s3 rfl) h
  | cycS4 now pages => exact effect_cycS4 (hsel .s4 rfl) h
  | cycYield now pages =>
    exact effect_of_exec_eq (exec_cycYield now pages s) h
      (effect_setCtl _ _ (.left ⟨now, pages, rfl⟩ (hsel .yield rfl)))
  | mrd now a =>
    exact effect_of_exec_eq (exec_mrd now a s) h
      ⟨fieldWriters_same s _, .read now a.toNat, rfl, .same ⟨rfl, rfl, rfl, rfl⟩⟩
  | mwr now a b =>
    exact effect_of_exec_eq (exec_mwr now a b s) h
      ⟨fieldWriters_same s _, .write now a.toNat b rfl, rfl, .same ⟨rfl, rfl, rfl, rfl⟩⟩
  | ramDecayed now a => exact effect_of_exec_eq (exec_ramDecayed now a s) h (effect_returning _)
  | ramMaintain ticks => cases (exec_ramMaintain ticks s).symm.trans h

/-- A step has the effect of its operation on the state with the call taken. -/
theorem effect_of_step {s t : State} {i : Instr} (hnext : s.nextInstr = some i) (h : step s = .next t) :
    Effect s.dequeue i t := by
  rw [step_of_nextInstr hnext] at h
  have hsel : Selected s i := selected_of_nextInstr hnext
  exact effect_of_exec hsel h

end Sys2Proof.Proofs
end

section
/-! PROOFS. What every step keeps, read off its effect: the invariant (R35, R36, R38, R39), the grant (R186), the edges
of the sequencer (R28), the bytes of the RAM (R38) and the fields of the channels (R21 to R26). -/

namespace Sys2Proof.Proofs

open Sys2Proof.Machine

/-! The part of the invariant that speaks of the controller. -/

/-- R35 and R36 (c), (d), of a controller by itself. -/
def SequencerInv (x : Controller) : Prop :=
  x.dAck = (x.state == .s3 || x.state == .s4) ∧
    ((x.state = .idle ∨ x.state = .s0 ∨ x.state = .s1 ∨ x.state = .yield) → x.highAddress = 0xffff#16) ∧
    (x.highAddress = 0xffff#16 ∨ x.highAddress.toNat < 0x100)

theorem inv_iff (s : State) : Inv s ↔ s.ram.canonical ∧ SequencerInv s.ctl := Iff.rfl

/-- Outside S3 and S4, `dAck` false and the sentinel in the cache are all that the invariant asks. -/
theorem sequencerInv_of_sentinel {x : Controller} (hdack : x.dAck = false) (hcache : x.highAddress = 0xffff#16)
    (hphase : (x.state == .s3 || x.state == .s4) = false) : SequencerInv x :=
  ⟨hdack.trans hphase.symm, fun _ => hcache, .inl hcache⟩

theorem sequencerInv_arbitratedCtl {m : State} (h : SequencerInv m.ctl) : SequencerInv (arbitratedCtl m) := by
  obtain ⟨-, hnone⟩ | ⟨c, -, hidle, hgrant⟩ := arbitratedCtl_cases m
  · rw [hnone]
    exact h
  · obtain ⟨hdack, -, -⟩ := h
    rw [hidle] at hdack
    rw [hgrant]
    exact sequencerInv_of_sentinel hdack rfl rfl

theorem sequencerInv_of_same {x y : Controller} (hsame : SameSequencer x y) (h : SequencerInv x) : SequencerInv y := by
  obtain ⟨hstate, -, hdack, hcache⟩ := hsame
  rw [SequencerInv, hstate, hdack, hcache]
  exact h

/-- The S2 action caches a byte, or keeps what was cached. -/
theorem sequencerInv_actionS2 (now : Nat) (pages : Pages) {s : State} (h : SequencerInv s.ctl) :
    SequencerInv (actionS2 now pages s).ctl := by
  obtain ⟨-, -, hcache⟩ := h
  have hr := (s.chan s.ctl.channel).currentAddress.isLt
  rw [actionS2_ctl]
  refine ⟨rfl, fun hdropped => ?_, ?_⟩
  · obtain h | h | h | h := hdropped <;> cases h
  · show (if _ then _ else _) = _ ∨ BitVec.toNat (if _ then _ else _) < _
    split
    · exact hcache
    · rw [highCache_toNat]
      exact .inr (by omega)

theorem sequencerInv_actionS4 (now : Nat) (s : State) : SequencerInv (actionS4 now s).ctl := by
  obtain ⟨hdack, -, -, -, hcache, -, hstate⟩ := actionS4_ctl_fields now s
  refine sequencerInv_of_sentinel hdack hcache ?_
  obtain h | h | h := hstate <;> rw [h] <;> rfl

theorem sequencerInv_of_controlEffect {s : State} {i : Instr} {x : Controller} (h : SequencerInv s.ctl)
    (heffect : ControlEffect s i x) : SequencerInv x := by
  have ⟨hdack, hdropped, hcache⟩ := h
  cases heffect with
  | same hsame => exact sequencerInv_of_same hsame h
  | arbitrated m hm hedge => exact sequencerInv_arbitratedCtl (hm ▸ h)
  | cleared hclear =>
    exact sequencerInv_arbitratedCtl (sequencerInv_of_sentinel rfl rfl rfl)
  | cacheDropped hidle => exact ⟨hdack, fun _ => rfl, .inl rfl⟩
  | started hi hs0 =>
    rw [hs0] at hdack
    exact sequencerInv_of_sentinel hdack (hdropped (.inr (.inl hs0))) rfl
  | advancedToS2 hi hs1 =>
    rw [hs1] at hdack
    exact sequencerInv_of_sentinel hdack (hdropped (.inr (.inr (.inl hs1)))) rfl
  | acted now pages hedge => exact sequencerInv_actionS2 now pages h
  | advancedToS4 hi hs3 =>
    rw [hs3] at hdack
    refine ⟨hdack, fun hs4 => ?_, hcache⟩
    obtain h | h | h | h := hs4 <;> cases h
  | ended now hi hedge => exact sequencerInv_actionS4 now s
  | left hi hyield =>
    rw [hyield] at hdack
    exact sequencerInv_arbitratedCtl (sequencerInv_of_sentinel hdack rfl rfl)

theorem canonical_of_ramEffect {s : State} {i : Instr} {r : Ram} (h : s.ram.canonical) (heffect : RamEffect s i r) :
    r.canonical := by
  cases heffect with
  | same => exact h
  | read now a => exact Ram.canonical_afterRead h now a
  | write now a b _ => exact Ram.canonical_afterWrite h now a b

/-- Settles O8: with no call waiting nothing moves; otherwise the RAM and the controller by their effects. -/
theorem stepKeepsTheInvariant : Obligations.StepKeepsTheInvariant := by
  intro s t hinv hstep
  cases hnext : s.nextInstr with
  | none =>
    rw [step, hnext] at hstep
    exact Host.Outcome.next.inj hstep ▸ hinv
  | some i =>
    obtain ⟨hcanonical, hsequencer⟩ := (inv_iff s).mp hinv
    have heffect := effect_of_step hnext hstep
    exact (inv_iff t).mpr ⟨canonical_of_ramEffect (s := s.dequeue) hcanonical heffect.ram,
      sequencerInv_of_controlEffect (s := s.dequeue) hsequencer heffect.control⟩

/-! The grant (R186). -/

theorem arbitratedCtl_of_not_idle {m : State} (h : m.ctl.state ≠ .idle) : arbitratedCtl m = m.ctl := by
  rw [arbitratedCtl, arbitrate_of_not_idle h]

theorem grant_kept_of_controlEffect {s : State} {i : Instr} {x : Controller} (hbusy : s.ctl.state ≠ .idle)
    (hends : endsService i = false) (heffect : ControlEffect s i x) :
    x.channel = s.ctl.channel ∧ x.state ≠ .idle := by
  cases heffect with
  | same hsame =>
    obtain ⟨hstate, hchannel, -, -⟩ := hsame
    exact ⟨hchannel, hstate ▸ hbusy⟩
  | arbitrated m hm hedge =>
    rw [arbitratedCtl_of_not_idle (hm ▸ hbusy), hm]
    exact ⟨rfl, hbusy⟩
  | cleared hclear =>
    obtain ⟨v, rfl⟩ := hclear
    cases hends
  | cacheDropped hidle => exact absurd hidle hbusy
  | started hi hs0 => exact ⟨rfl, show Phase.s1 ≠ .idle by decide⟩
  | advancedToS2 hi hs1 => exact ⟨rfl, show Phase.s2 ≠ .idle by decide⟩
  | acted now pages hedge =>
    rw [actionS2_ctl]
    exact ⟨rfl, show Phase.s3 ≠ .idle by decide⟩
  | advancedToS4 hi hs3 => exact ⟨rfl, show Phase.s4 ≠ .idle by decide⟩
  | ended now hi hedge => cases hends.symm.trans hi
  | left hi hyield =>
    obtain ⟨now, pages, rfl⟩ := hi
    cases hends

/-- Settles O44, by the effect on the controller. -/
theorem aGrantIsNeverWithdrawn : Obligations.AGrantIsNeverWithdrawn := by
  intro s t i hnext hstep hbusy hends
  exact grant_kept_of_controlEffect (s := s.dequeue) hbusy hends (effect_of_step hnext hstep).control

/-! The edges of the sequencer (R28). -/

theorem arbitratedCtl_state (m : State) :
    (arbitratedCtl m).state = m.ctl.state ∨ (m.ctl.state = .idle ∧ (arbitratedCtl m).state = .s0) := by
  obtain ⟨-, hnone⟩ | ⟨c, -, hidle, hgrant⟩ := arbitratedCtl_cases m
  · exact .inl (by rw [hnone])
  · exact .inr ⟨hidle, by rw [hgrant]; rfl⟩

theorem phaseEdge_of_controlEffect {s : State} {i : Instr} {x : Controller} (heffect : ControlEffect s i x) :
    x.state = s.ctl.state ∨ phaseEdge i s.ctl.state x.state = true := by
  cases heffect with
  | same hsame => exact .inl hsame.1
  | arbitrated m hm hedge =>
    obtain h | ⟨hidle, hs0⟩ := arbitratedCtl_state m
    · exact .inl (by rw [h, hm])
    · rw [hm] at hidle
      exact .inr (by rw [hidle, hs0, hedge])
  | cleared hclear =>
    obtain ⟨v, rfl⟩ := hclear
    obtain h | ⟨-, hs0⟩ := arbitratedCtl_state (masterCleared s)
    · exact .inr (by rw [h]; rfl)
    · exact .inr (by rw [hs0]; rfl)
  | cacheDropped hidle => exact .inl rfl
  | started hi hs0 => exact .inr (by rw [hi, hs0]; rfl)
  | advancedToS2 hi hs1 =>
    obtain ⟨now, pages, rfl⟩ := hi
    exact .inr (by rw [hs1]; rfl)
  | acted now pages hedge => exact .inr (by rw [actionS2_ctl]; exact hedge)
  | advancedToS4 hi hs3 =>
    obtain ⟨now, pages, rfl⟩ := hi
    exact .inr (by rw [hs3]; rfl)
  | ended now hi hedge =>
    obtain ⟨-, -, -, -, -, -, hstate⟩ := actionS4_ctl_fields now s
    exact .inr (hedge _ hstate)
  | left hi hyield =>
    obtain ⟨now, pages, rfl⟩ := hi
    obtain h | ⟨-, hs0⟩ := arbitratedCtl_state (enter .idle s)
    · exact .inr (by rw [h, hyield]; rfl)
    · exact .inr (by rw [hs0, hyield]; rfl)

/-- Settles O45, by the effect on the controller. -/
theorem controllerStateMovesAsListed : Obligations.ControllerStateMovesAsListed := by
  intro s t i hnext hstep
  exact phaseEdge_of_controlEffect (s := s.dequeue) (effect_of_step hnext hstep).control

/-! The RAM (R38). -/

theorem byteAt_of_ramEffect {s : State} {i : Instr} {r : Ram} {x : Nat}
    (hx : storeAddress i s ≠ some x ∨ s.ram.size ≤ x) (heffect : RamEffect s i r) :
    r.byteAt x = s.ram.byteAt x := by
  cases heffect with
  | same => rfl
  | read now a => exact Ram.afterRead_byteAt _ _ _ _
  | write now a b h =>
    refine afterWrite_byteAt_other now b (hx.imp_left fun hne => ?_)
    rintro rfl
    exact hne h

/-- Settles O56, by the effect on the RAM. -/
theorem bytesChangeOnlyWhereAWriteStores : Obligations.BytesChangeOnlyWhereAWriteStores := by
  intro s t i x hnext hstep hx
  exact byteAt_of_ramEffect (s := s.dequeue) hx (effect_of_step hnext hstep).ram

/-! The channel fields and the configuration (R21 to R26, R40 to R42). -/

theorem sameConfiguration_of_ramEffect {s t : State} {i : Instr} (htemp : t.tempClearOnRead = s.tempClearOnRead)
    (heffect : RamEffect s i t.ram) : SameConfiguration s t := by
  generalize hr : t.ram = r at heffect
  cases heffect with
  | same => exact sameConfiguration_of_eq hr htemp
  | read now a => exact sameConfiguration_afterRead hr htemp
  | write now a b _ => exact sameConfiguration_afterWrite hr htemp

/-- Settles O59: the clauses are the fields of `FieldWriters`. -/
theorem eachFieldHasItsWritersOnly : Obligations.EachFieldHasItsWritersOnly := by
  intro s t i c hnext hstep
  have heffect := effect_of_step hnext hstep
  obtain ⟨hbase, hcurrent, hinternal, hmode, hhard, hsoft, hmask, hcleared, hset⟩ := heffect.channels c
  exact ⟨hbase, hcurrent, hinternal, hmode, hhard, hsoft, hmask, hcleared, hset,
    sameConfiguration_of_ramEffect (s := s.dequeue) heffect.tempClearOnRead heffect.ram⟩

end Sys2Proof.Proofs
end
